-- ==== Sys2Proof/Word.lean ====
section
/-! DEFINITION. The types of the machine's values: the two word widths, command and response words, letters, the numbers of rotors,
reflectors and slots, ring settings, and 26-entry tables. -/

/-- The entry at an index, the machine's only way of reading a table or a register file: a table lookup (00_scope.md R10,
20_memory.md R40). -/
def Vector.entry {α : Type} {n : Nat} (v : Vector α n) (i : Fin n) : α := v[i]

namespace Sys2Proof

/-- `CMD_WIDTH` (00_scope.md R6; 92_eei_decisions.md D1), the width of a command word. -/
abbrev CMD_WIDTH : Nat := 32

/-- `RSP_WIDTH` (00_scope.md R6; 92_eei_decisions.md D1), the width of a response word. -/
abbrev RSP_WIDTH : Nat := 32

/-- A command word (00_scope.md R5, R9). -/
abbrev Word := BitVec CMD_WIDTH

/-- A response word (00_scope.md R5, R9). -/
abbrev Response := BitVec RSP_WIDTH

/-- A letter position, 0 = A to 25 = Z (00_scope.md R7). -/
abbrev Letter := Fin 26

/-- A rotor number, 0 = I to 7 = VIII (10_state.md R20, R21). -/
abbrev RotorId := Fin 8

/-- A reflector number, 0 = B, 1 = C (10_state.md R24). -/
abbrev ReflId := Fin 2

/-- A rotor slot, 0 = left, 1 = middle, 2 = right (10_state.md R20). -/
abbrev Slot := Fin 3

/-- A ring setting, stored as the integer itself (10_state.md R22). The value 0 is excluded by the state invariant
(R27, I1), not by the type. DESIGN CHOICE, safe: see notes/assumptions/10. -/
abbrev RingSetting := Fin 27

/-- A table of 26 letters (00_scope.md R11, 40_datapath.md R80). -/
abbrev Table := Vector Letter 26

end Sys2Proof
end

