-- ==== Sys2Proof/Syntax.lean ====
section
/-! DEFINITION. The commands (30_encoding.md R61, R63), one constructor per row of the opcode table. -/

namespace Sys2Proof

/-- A command with its operand fields. Every field is the unsigned integer its bits form (30_encoding.md R62); the
fields are wider than the legal operands, so that every operand error has a command that raises it. -/
inductive Instr where
  /-- INIT (42_config_commands.md R110). -/
  | init
  /-- SETROT pos, rid, ring, start (42_config_commands.md R111). -/
  | setrot (pos rid ring start : Nat)
  /-- SETREF ref (42_config_commands.md R112). -/
  | setref (ref : Nat)
  /-- ADDPLUG a, b (42_config_commands.md R113). -/
  | addplug (a b : Nat)
  /-- KEY x (43_runtime_commands.md R120). -/
  | key (x : Nat)
  /-- STEP (41_stepping.md R106). -/
  | step
  /-- RDWIN (43_runtime_commands.md R121). -/
  | rdwin
deriving DecidableEq, Repr

end Sys2Proof
end

