-- ==== Sys2Proof/WellFormed.lean ====
section
/-! DEFINITION. When a command term has an encoding: every operand fits its field (30_encoding.md R61, R62). -/

namespace Sys2Proof

/-- Every operand fits in its field: 4 bits for `pos` and `rid`, 8 bits for the others (30_encoding.md R62). Operands
that fit and are out of their LEGAL range are well formed: the machine reports them by a status. -/
def Instr.fits : Instr → Bool
  | .init => true
  | .setrot pos rid ring start => pos < 16 && rid < 16 && ring < 256 && start < 256
  | .setref ref => ref < 256
  | .addplug a b => a < 256 && b < 256
  | .key x => x < 256
  | .step => true
  | .rdwin => true

/-- The command has an encoding (30_encoding.md R61, R62). -/
abbrev Instr.WellFormed (i : Instr) : Prop := i.fits = true

end Sys2Proof
end

