-- ==== Sys2Proof/Decode.lean ====
section
/-! DEFINITION. Decoding a command word (30_encoding.md R60 to R69), total and rejecting by name; the encoder, written
from the same field tables; and the opcode table as masks and matches. -/

namespace Sys2Proof

/-- `W[hi:lo]` of a command or a response, the unsigned integer formed by bits `hi` down to `lo` (00_scope.md R9). -/
def field {n : Nat} (w : BitVec n) (hi lo : Nat) : Nat := (w.extractLsb hi lo).toNat

/-- Why a word is no command; both are the status IllegalCommand (30_encoding.md R67, R68, R69). -/
inductive DecodeError where
  /-- `op` is 0x00 or 0x08 to 0xFF (30_encoding.md R67). -/
  | undefinedOpcode
  /-- `op` is defined and a reserved bit is set (30_encoding.md R68). -/
  | reservedBits
deriving DecidableEq, Repr

/-- The reserved-field test, made before any operand is examined (30_encoding.md R68). -/
def checkReserved (w : Word) (hi lo : Nat) (i : Instr) : Except DecodeError Instr :=
  if field w hi lo = 0 then .ok i else .error .reservedBits

/-- The decoder: `op` alone chooses the format (30_encoding.md R60, R61, R63), in the order of R69. -/
def decode (w : Word) : Except DecodeError Instr :=
  match field w 31 24 with
  | 0x01 => checkReserved w 23 0 .init
  | 0x02 => .ok (.setrot (field w 23 20) (field w 19 16) (field w 15 8) (field w 7 0))
  | 0x03 => checkReserved w 23 8 (.setref (field w 7 0))
  | 0x04 => checkReserved w 23 16 (.addplug (field w 15 8) (field w 7 0))
  | 0x05 => checkReserved w 23 8 (.key (field w 7 0))
  | 0x06 => checkReserved w 23 0 .step
  | 0x07 => checkReserved w 23 0 .rdwin
  | _ => .error .undefinedOpcode

/-- The word of a command (30_encoding.md R61); an operand that does not fit its field loses its high bits, which a
well-formed command has none of. -/
def encode : Instr → Word
  | .init => 0x01#8 ++ 0#24
  | .setrot pos rid ring start =>
    0x02#8 ++ BitVec.ofNat 4 pos ++ BitVec.ofNat 4 rid ++ BitVec.ofNat 8 ring ++ BitVec.ofNat 8 start
  | .setref ref => 0x03#8 ++ 0#16 ++ BitVec.ofNat 8 ref
  | .addplug a b => 0x04#8 ++ 0#8 ++ BitVec.ofNat 8 a ++ BitVec.ofNat 8 b
  | .key x => 0x05#8 ++ 0#16 ++ BitVec.ofNat 8 x
  | .step => 0x06#8 ++ 0#24
  | .rdwin => 0x07#8 ++ 0#24

/-- The opcode of a command (30_encoding.md R63). -/
def Instr.opcode : Instr → Nat
  | .init => 0x01
  | .setrot _ _ _ _ => 0x02
  | .setref _ => 0x03
  | .addplug _ _ => 0x04
  | .key _ => 0x05
  | .step => 0x06
  | .rdwin => 0x07

/-- A row of the machine-readable command table (30_encoding.md, opening paragraph). -/
structure OpcodeRow where
  opcode : Nat
  mask   : Word
  value  : Word
deriving DecidableEq, Repr

/-- The rows of spec/opcode_table.json, in its order. -/
def opcodeRows : List OpcodeRow :=
  [ ⟨0x01, 0xFFFFFFFF#32, 0x01000000#32⟩,
    ⟨0x02, 0xFF000000#32, 0x02000000#32⟩,
    ⟨0x03, 0xFFFFFF00#32, 0x03000000#32⟩,
    ⟨0x04, 0xFFFF0000#32, 0x04000000#32⟩,
    ⟨0x05, 0xFFFFFF00#32, 0x05000000#32⟩,
    ⟨0x06, 0xFFFFFFFF#32, 0x06000000#32⟩,
    ⟨0x07, 0xFFFFFFFF#32, 0x07000000#32⟩ ]

/-- "A word `W` selects the row with `(W & mask) == match`" (30_encoding.md, opening paragraph). -/
def OpcodeRow.selects (r : OpcodeRow) (w : Word) : Bool := w &&& r.mask == r.value

/-- The command in the low `nbits` bits of `w`, as the host reads the opcode table. A command word is one indivisible
32-bit value (20_memory.md R45), so no byte order enters; a longer one is no command of this hardware
(30_encoding.md R60). -/
def decodeTableWord (nbits w : Nat) : Option Instr :=
  if w % 2 ^ nbits < 2 ^ CMD_WIDTH then (decode (BitVec.ofNat CMD_WIDTH (w % 2 ^ nbits))).toOption else none

end Sys2Proof
end

