-- ==== Sys2Proof/Config.lean ====
section
/-! DEFINITION. The parameters of 00_scope.md R6: the fixed sizes, and the record of what the spec marks as a table or
a decision. The values this hardware takes for the record are in Machine/Tables.lean. -/

namespace Sys2Proof

/-- `NLETTERS` (00_scope.md R6). -/
abbrev NLETTERS : Nat := 26
/-- `NSLOTS` (00_scope.md R6). -/
abbrev NSLOTS : Nat := 3
/-- `NROTORS` (00_scope.md R6). -/
abbrev NROTORS : Nat := 8
/-- `NREFL` (00_scope.md R6). -/
abbrev NREFL : Nat := 2
/-- `MAXPLUGS` (00_scope.md R6). -/
abbrev MAXPLUGS : Nat := 13
/-- `RING_MIN` (00_scope.md R6). -/
abbrev RING_MIN : Nat := 1
/-- `RING_MAX` (00_scope.md R6). -/
abbrev RING_MAX : Nat := 26

/-- The order in which a platform might serialise a word's bytes (20_memory.md R45). -/
inductive ByteOrder where
  | littleEndian
  | bigEndian
deriving DecidableEq, Repr, Inhabited

/-- `WORD_BYTE_ORDER` (00_scope.md R6, 20_memory.md R45): OPEN, and no rule depends on it. No body, so that nothing
can. DESIGN CHOICE, safe: see notes/assumptions/11. -/
opaque WORD_BYTE_ORDER : ByteOrder

/-- One slot's part of `DEFAULT_BANK` (00_scope.md R6). -/
structure SlotSetting where
  rotor : RotorId
  ring  : RingSetting
  start : Letter
deriving DecidableEq, Repr

/-- What the spec makes a table or a decision (00_scope.md R6; 20_memory.md R41, R42, R43, R45; 92_eei_decisions.md D1,
D10, D11, D19). The datapath and the commands take it as an argument, so that a claim can name it. -/
structure Config where
  /-- `WIRING[r]`, indexed by rotor number (20_memory.md R41). -/
  wiring      : Vector Table 8
  /-- `REFLECTOR[f]`, indexed by reflector number (20_memory.md R42). -/
  reflector   : Vector Table 2
  /-- `NOTCH[r]`, the notch letters of a rotor (20_memory.md R43). -/
  notch       : Vector (List Letter) 8
  /-- `DEFAULT_BANK`, indexed by slot (10_state.md R21). -/
  defaultBank : Vector SlotSetting 3
  /-- `DEFAULT_REFL` (10_state.md R24). -/
  defaultRefl : ReflId
  /-- `CMD_WIDTH` (92_eei_decisions.md D1). DESIGN CHOICE, safe: notes/assumptions/21. -/
  cmdWidth    : Nat
  /-- `RSP_WIDTH` (92_eei_decisions.md D1). DESIGN CHOICE, safe: notes/assumptions/21. -/
  rspWidth    : Nat
  /-- `WORD_BYTE_ORDER` (20_memory.md R45; 92_eei_decisions.md D19). -/
  wordByteOrder : ByteOrder
deriving DecidableEq, Repr

end Sys2Proof
end

