-- ==== Sys2Proof/Machine/Tables.lean ====
section
/-! DEFINITION. The contents of the constant tables and the default configuration that this hardware takes
(20_memory.md R41, R42, R43; 70_reset_and_hazards.md R160). -/

namespace Sys2Proof.Machine

/-- Rotor I (20_memory.md R41). UNVERIFIED (the spec takes the table from
general knowledge, 93_implementation_defined.md G1), unsafe: notes/assumptions/5. -/
def wiringI : Table :=
  #v[4, 10, 12, 5, 11, 6, 3, 16, 21, 25, 13, 19, 14, 22, 24, 7, 23, 20, 18, 15, 0, 8, 1, 17, 2, 9]
/-- Rotor II (20_memory.md R41). -/
def wiringII : Table :=
  #v[0, 9, 3, 10, 18, 8, 17, 20, 23, 1, 11, 7, 22, 19, 12, 2, 16, 6, 25, 13, 15, 24, 5, 21, 14, 4]
/-- Rotor III (20_memory.md R41). -/
def wiringIII : Table :=
  #v[1, 3, 5, 7, 9, 11, 2, 15, 17, 19, 23, 21, 25, 13, 24, 4, 8, 22, 6, 0, 10, 12, 20, 18, 16, 14]
/-- Rotor IV (20_memory.md R41). -/
def wiringIV : Table :=
  #v[4, 18, 14, 21, 15, 25, 9, 0, 24, 16, 20, 8, 17, 7, 23, 11, 13, 5, 19, 6, 10, 3, 2, 12, 22, 1]
/-- Rotor V (20_memory.md R41). -/
def wiringV : Table :=
  #v[21, 25, 1, 17, 6, 8, 19, 24, 20, 15, 18, 3, 13, 7, 11, 23, 0, 22, 12, 9, 16, 14, 5, 4, 2, 10]
/-- Rotor VI (20_memory.md R41). -/
def wiringVI : Table :=
  #v[9, 15, 6, 21, 14, 20, 12, 5, 24, 16, 1, 4, 13, 7, 25, 17, 3, 10, 0, 18, 23, 11, 8, 2, 19, 22]
/-- Rotor VII (20_memory.md R41). -/
def wiringVII : Table :=
  #v[13, 25, 9, 7, 6, 17, 2, 23, 12, 24, 18, 22, 1, 14, 20, 5, 0, 8, 21, 11, 15, 4, 10, 16, 3, 19]
/-- Rotor VIII (20_memory.md R41). -/
def wiringVIII : Table :=
  #v[5, 10, 16, 7, 19, 11, 23, 14, 2, 1, 9, 18, 15, 3, 25, 17, 0, 12, 4, 22, 13, 8, 20, 24, 6, 21]

/-- Reflector B (20_memory.md R42). UNVERIFIED (the spec takes the table from general knowledge,
93_implementation_defined.md G2), unsafe: notes/assumptions/6. -/
def reflectorB : Table :=
  #v[24, 17, 20, 7, 16, 18, 11, 3, 15, 23, 13, 6, 14, 10, 12, 8, 4, 1, 5, 25, 2, 22, 21, 9, 0, 19]
/-- Reflector C (20_memory.md R42). -/
def reflectorC : Table :=
  #v[5, 21, 15, 9, 8, 0, 14, 24, 4, 3, 17, 25, 23, 22, 6, 2, 19, 10, 20, 16, 18, 1, 13, 12, 7, 11]

/-- The notch letters of rotors I to VIII (20_memory.md R43; 92_eei_decisions.md D11, 90_conflicts.md C1). UNVERIFIED
(the spec's decision), unsafe: notes/assumptions/7. -/
def notchSets : Vector (List Letter) 8 :=
  #v[[16], [4], [21], [9], [25], [0, 13], [0, 13], [0, 13]]

/-- Left III, middle II, right I, rings 1, start A (70_reset_and_hazards.md R160; 92_eei_decisions.md D10). UNVERIFIED
(the spec's decision), unsafe: notes/assumptions/8. -/
def defaultBank : Vector SlotSetting 3 :=
  #v[⟨2, 1, 0⟩, ⟨1, 1, 0⟩, ⟨0, 1, 0⟩]

/-- The configuration this hardware takes (00_scope.md R6). -/
def hw : Config where
  wiring := #v[wiringI, wiringII, wiringIII, wiringIV, wiringV, wiringVI, wiringVII, wiringVIII]
  reflector := #v[reflectorB, reflectorC]
  notch := notchSets
  defaultBank := defaultBank
  defaultRefl := 0
  cmdWidth := CMD_WIDTH
  rspWidth := RSP_WIDTH
  wordByteOrder := WORD_BYTE_ORDER

end Sys2Proof.Machine
end

