-- ==== Sys2Proof/Machine/Arch.lean ====
section
/-! DEFINITION. The architectural state of 10_state.md R20, the writes of its registers, and its default value. -/

namespace Sys2Proof.Machine

/-- The architectural state, exactly the record of 10_state.md R20. -/
structure Arch where
  /-- The rotor in each slot (10_state.md R21). -/
  ID   : Vector RotorId 3
  /-- The ring setting of each slot (10_state.md R22). -/
  RING : Vector RingSetting 3
  /-- The rotational offset of each slot, its window letter (10_state.md R23, 41_stepping.md R100). -/
  OFF  : Vector Letter 3
  /-- The selected reflector (10_state.md R24). -/
  REF  : ReflId
  /-- The plugboard map (10_state.md R25). -/
  PLUG : Vector Letter 26
deriving DecidableEq, Repr

/-- `ID[s] <- r`. -/
def Arch.setID (a : Arch) (s : Slot) (r : RotorId) : Arch := { a with ID := a.ID.set s r }
/-- `RING[s] <- n`. -/
def Arch.setRING (a : Arch) (s : Slot) (n : RingSetting) : Arch := { a with RING := a.RING.set s n }
/-- `OFF[s] <- x`. -/
def Arch.setOFF (a : Arch) (s : Slot) (x : Letter) : Arch := { a with OFF := a.OFF.set s x }
/-- `REF <- f`. -/
def Arch.setREF (a : Arch) (f : ReflId) : Arch := { a with REF := f }
/-- `PLUG[i] <- x`, the only memory write primitive (20_memory.md R44). -/
def Arch.setPLUG (a : Arch) (i x : Letter) : Arch := { a with PLUG := a.PLUG.set i x }

/-- The plugboard map with no pairs, `PLUG[i] = i` (10_state.md R25). -/
def noPlugs : Vector Letter 26 := Vector.ofFn fun i => i

/-- The default configuration: the state after reset (70_reset_and_hazards.md R160) and after INIT
(42_config_commands.md R110). -/
def Arch.default (c : Config) : Arch where
  ID := Vector.ofFn fun s => (c.defaultBank.entry s).rotor
  RING := Vector.ofFn fun s => (c.defaultBank.entry s).ring
  OFF := Vector.ofFn fun s => (c.defaultBank.entry s).start
  REF := c.defaultRefl
  PLUG := noPlugs

end Sys2Proof.Machine
end

