-- ==== Sys2Proof/Machine/Datapath.lean ====
section
/-! DEFINITION. The permutation datapath (40_datapath.md R80 to R94): pure functions of the tables and the registers;
none of them writes state. -/

namespace Sys2Proof.Machine

/-- `mod26(n)`, the representative in 0..25 of any integer (00_scope.md R8). -/
def mod26 (n : Int) : Letter := ⟨(n % 26).toNat, by omega⟩

/-- `T⁻¹` of a bijective table (40_datapath.md R81): entry `j` is the place of `j` in `T`. A table that misses `j` has no
inverse and no table of this hardware misses one; DESIGN CHOICE, safe: notes/assumptions/13. -/
def inverse (T : Table) : Table := Vector.ofFn fun j => mod26 (T.toList.idxOf j)

/-- `T2 ∘ T1` (40_datapath.md R80). -/
def compose (T2 T1 : Table) : Table := Vector.ofFn fun i => T2.entry (T1.entry i)

/-- `Shift(T, k)` (40_datapath.md R82). -/
def shift (T : Table) (k : Int) : Table :=
  Vector.ofFn fun j => mod26 ((T.entry (mod26 ((j : Int) - k)) : Int) + k)

/-- `Eff(r, ring)`, the effective table (40_datapath.md R84). -/
def eff (c : Config) (r : RotorId) (ring : RingSetting) : Table := shift (c.wiring.entry r) ((ring : Int) - 1)

/-- `Cur(s)`, the current table of a slot (40_datapath.md R85). TESTED (the spec records that the source's
vectors fix the direction, 95_test_vectors.md section 2), unsafe: notes/assumptions/9. -/
def cur (c : Config) (a : Arch) (s : Slot) : Table := shift (eff c (a.ID.entry s) (a.RING.entry s)) (-(a.OFF.entry s : Int))

/-- `RotFwd(s, x)` (40_datapath.md R86). -/
def rotFwd (c : Config) (a : Arch) (s : Slot) (x : Letter) : Letter := (cur c a s).entry x

/-- `RotInv(s, y)` (40_datapath.md R87). -/
def rotInv (c : Config) (a : Arch) (s : Slot) (y : Letter) : Letter := (inverse (cur c a s)).entry y

/-- `BankFwd(x)`: right, middle, left (40_datapath.md R89). -/
def bankFwd (c : Config) (a : Arch) (x : Letter) : Letter := rotFwd c a 0 (rotFwd c a 1 (rotFwd c a 2 x))

/-- `BankInv(y)`: left, middle, right (40_datapath.md R90). -/
def bankInv (c : Config) (a : Arch) (y : Letter) : Letter := rotInv c a 2 (rotInv c a 1 (rotInv c a 0 y))

/-- `Reflect(y)` (40_datapath.md R91). -/
def reflect (c : Config) (a : Arch) (y : Letter) : Letter := (c.reflector.entry a.REF).entry y

/-- `Plug(x)` (40_datapath.md R92). -/
def plug (a : Arch) (x : Letter) : Letter := a.PLUG.entry x

/-- `Pipeline(x)` at the current state (40_datapath.md R93). -/
def pipeline (c : Config) (a : Arch) (x : Letter) : Letter :=
  let y1 := plug a x
  let y2 := bankFwd c a y1
  let y3 := reflect c a y2
  let y4 := bankInv c a y3
  plug a y4

end Sys2Proof.Machine
end

