-- ==== Sys2Proof/Machine/State.lean ====
section
/-! DEFINITION. The state of the machine, its reset value, and the reasons a step can stop (none on this hardware). -/

namespace Sys2Proof.Machine

/-- What the host can do to the core (00_scope.md R5, 70_reset_and_hazards.md R161). -/
inductive HostEvent where
  /-- Present one command word and wait for its response. -/
  | command (w : Word)
  /-- Assert the reset input, abandoning the command in progress if there is one. DEDUCED, safe:
  notes/assumptions/4. -/
  | reset (abandoned : Option Word)
deriving DecidableEq, Repr

/-- The core and its command interface. -/
structure State where
  /-- All the state of the core (10_state.md R20). -/
  arch   : Arch
  /-- What the host is still to do, in the order it does it (20_memory.md R49). The model's own field. DESIGN CHOICE,
  safe: notes/assumptions/1. -/
  inbox  : List HostEvent
  /-- The responses given so far, oldest first (30_encoding.md R65); no rule reads it (10_state.md R28). The model's own
  field. DESIGN CHOICE, safe: notes/assumptions/3. -/
  outbox : List Response
deriving DecidableEq, Repr

/-- The machine right after reset (70_reset_and_hazards.md R160): the default configuration, nothing presented, nothing
answered. -/
def State.reset : State := ⟨Arch.default hw, [], []⟩

/-- A reason to stop. There is none: every command has a response and errors stop nothing (43_runtime_commands.md R125,
60_exceptions.md R140, R154). DEDUCED, safe: notes/assumptions/16. -/
inductive Fault where
deriving DecidableEq, Repr

/-- A reason to refuse. -/
inductive Refusal where
  /-- An instruction that has no meaning in the model, by its mnemonic. Raised by `exec`'s refused arms only, of which
  there is none; safe. -/
  | notModelled (mnemonic : String)
deriving DecidableEq, Repr

/-- How a step of this machine ends. -/
abbrev Result := Host.Outcome State Fault Refusal

end Sys2Proof.Machine
end

