-- ==== Sys2Proof/Machine/Flags.lean ====
section
/-! DEFINITION. This hardware has no flags (10_state.md R28); what reports a command's outcome is the status field of its
response word (30_encoding.md R65, R66), computed here. -/

namespace Sys2Proof.Machine

/-- The status names of 30_encoding.md R66. -/
inductive Status where
  | ok
  | unknownRotor
  | unknownPosition
  | invalidRingSetting
  | invalidStartPosition
  | unknownReflector
  | invalidPlugFormat
  | duplicatePlug
  /-- Never produced by the core, returned by the host's `AddRotor` (60_exceptions.md R148). -/
  | tooManyRotors
  | dropped
  | illegalCommand
deriving DecidableEq, Repr

/-- The status codes of 30_encoding.md R66. -/
def Status.code : Status → BitVec 8
  | .ok => 0x00
  | .unknownRotor => 0x01
  | .unknownPosition => 0x02
  | .invalidRingSetting => 0x03
  | .invalidStartPosition => 0x04
  | .unknownReflector => 0x05
  | .invalidPlugFormat => 0x06
  | .duplicatePlug => 0x07
  | .tooManyRotors => 0x08
  | .dropped => 0x09
  | .illegalCommand => 0x0A

/-- `RSP = {status[7:0], data[23:0]}` (30_encoding.md R65, R66). -/
def response (st : Status) (data : BitVec 24) : Response := st.code ++ data

/-- `zext_N(v)` of a letter (00_scope.md R9). -/
def zext (n : Nat) (x : Letter) : BitVec n := BitVec.ofNat n x

/-- A command's result: the new architectural state and the response (00_scope.md R5). -/
structure Reply where
  arch : Arch
  rsp  : Response
deriving DecidableEq, Repr

/-- `respond(status, data)` in state `a` (00_scope.md R10). -/
def respond (st : Status) (data : BitVec 24) (a : Arch) : Reply := ⟨a, response st data⟩

/-- `raise <Status>`: no register and no map entry is written (60_exceptions.md R140). -/
def raise (st : Status) (a : Arch) : Reply := respond st 0 a

end Sys2Proof.Machine
end

