-- ==== Sys2Proof/Machine/Operands.lean ====
section
/-! DEFINITION. The legal range of each operand field (30_encoding.md R62): the value a field stands for, or `none` when
the field is out of range. -/

namespace Sys2Proof.Machine

/-- `pos`: 0 = left, 1 = middle, 2 = right (30_encoding.md R62). -/
def slotOperand (n : Nat) : Option Slot := if h : n < 3 then some ⟨n, h⟩ else none

/-- `rid`: 0 = I to 7 = VIII (30_encoding.md R62). -/
def rotorOperand (n : Nat) : Option RotorId := if h : n < 8 then some ⟨n, h⟩ else none

/-- `ring`: 1 to 26, the setting itself (30_encoding.md R62). -/
def ringOperand (n : Nat) : Option RingSetting := if h : 1 ≤ n ∧ n ≤ 26 then some ⟨n, by omega⟩ else none

/-- `start`, `a`, `b`, `x`: a letter, 0 to 25 (30_encoding.md R62). -/
def letterOperand (n : Nat) : Option Letter := if h : n < 26 then some ⟨n, h⟩ else none

/-- `ref`: 0 = B, 1 = C (30_encoding.md R62). -/
def reflOperand (n : Nat) : Option ReflId := if h : n < 2 then some ⟨n, h⟩ else none

end Sys2Proof.Machine
end

