-- ==== Sys2Proof/Machine/Ops.lean ====
section
/-! DEFINITION. The operations the commands share: rotation and stepping of the bank (41_stepping.md), the plugboard's
pair count, completing a command, and what the core does when it is presented an illegal word, a reset or nothing.
This hardware takes no exception and returns from none (60_exceptions.md R154, R155); its error mechanism is `raise`. -/

namespace Sys2Proof.Machine

/-- `Window(s) = OFF[s]` (41_stepping.md R100). -/
def window (a : Arch) (s : Slot) : Letter := a.OFF.entry s

/-- `Rotate(s)`: `OFF[s] <- mod26(OFF[s] + 1)` (41_stepping.md R101). -/
def rotate (s : Slot) (a : Arch) : Arch := a.setOFF s (mod26 ((a.OFF.entry s : Int) + 1))

/-- `AtNotch(s)`: the window letter is one of the slot's rotor's notch letters (41_stepping.md R103). -/
def atNotch (c : Config) (a : Arch) (s : Slot) : Bool := (c.notch.entry (a.ID.entry s)).contains (window a s)

/-- `StepBank` (41_stepping.md R103): both tests read the offsets as they are when the command begins. -/
def stepBank (c : Config) (a : Arch) : Arch :=
  let m := atNotch c a 1
  let r := atNotch c a 2
  let a' := if m then rotate 0 (rotate 1 a) else if r then rotate 1 a else a
  rotate 2 a'

/-- The number of installed plug pairs, half the letters that `PLUG` moves (10_state.md R25). -/
def pairCount (a : Arch) : Nat := ((List.finRange 26).countP fun i => a.PLUG.entry i != i) / 2

/-- A command ends: its writes take effect together and its response is given (00_scope.md R5, R10; 30_encoding.md
R65). -/
def complete (s : State) (r : Reply) : Result :=
  .next { s with arch := r.arch, outbox := s.outbox ++ [r.rsp] }

/-- What a word that is no command does (43_runtime_commands.md R122). -/
def illegalReply (a : Arch) : Reply := raise .illegalCommand a

/-- The hardware reset input: the effect of INIT on the registers, and no response to a command it abandons
(70_reset_and_hazards.md R161). -/
def hostReset (s : State) : State := { s with arch := Arch.default hw }

/-- What the host presents next, and the state once the core has taken it (00_scope.md R5). -/
def takeEvent (s : State) : Option (HostEvent × State) :=
  match s.inbox with
  | [] => none
  | e :: rest => some (e, { s with inbox := rest })

/-- The host presents the word `w` ahead of anything it was still to do. -/
def presentWord (s : State) (w : Word) : State := { s with inbox := .command w :: s.inbox }

end Sys2Proof.Machine
end

