-- ==== Sys2Proof/Machine/ConfigCommands.lean ====
section
/-! DEFINITION. The configuration commands INIT, SETROT, SETREF and ADDPLUG (42_config_commands.md). The reserved-field
test of each is the decoder's (30_encoding.md R68, R69). -/

namespace Sys2Proof.Machine

/-- INIT (42_config_commands.md R110): writes every piece of state. -/
def initReply (c : Config) (_a : Arch) : Reply := respond .ok 0 (Arch.default c)

/-- SETROT (42_config_commands.md R111): the four tests in the order written, then the three registers of the slot. -/
def setrotReply (pos rid ring start : Nat) (a : Arch) : Reply :=
  match rotorOperand rid with
  | none => raise .unknownRotor a
  | some r =>
    match slotOperand pos with
    | none => raise .unknownPosition a
    | some p =>
      match ringOperand ring with
      | none => raise .invalidRingSetting a
      | some n =>
        match letterOperand start with
        | none => raise .invalidStartPosition a
        | some x => respond .ok 0 (((a.setID p r).setRING p n).setOFF p x)

/-- SETREF (42_config_commands.md R112). -/
def setrefReply (ref : Nat) (a : Arch) : Reply :=
  match reflOperand ref with
  | none => raise .unknownReflector a
  | some f => respond .ok 0 (a.setREF f)

/-- ADDPLUG (42_config_commands.md R113): range, then `a = b`, then the duplicate test, then two entries of `PLUG`. -/
def addplugReply (l r : Nat) (a : Arch) : Reply :=
  match letterOperand l, letterOperand r with
  | some x, some y =>
    if x = y then raise .invalidPlugFormat a
    else if a.PLUG.entry x ≠ x ∨ a.PLUG.entry y ≠ y then raise .duplicatePlug a
    else respond .ok 0 ((a.setPLUG x y).setPLUG y x)
  | _, _ => raise .invalidPlugFormat a

/-- The meaning of INIT. -/
def execInit (s : State) : Result := complete s (initReply hw s.arch)
/-- The meaning of SETROT. -/
def execSetrot (pos rid ring start : Nat) (s : State) : Result := complete s (setrotReply pos rid ring start s.arch)
/-- The meaning of SETREF. -/
def execSetref (ref : Nat) (s : State) : Result := complete s (setrefReply ref s.arch)
/-- The meaning of ADDPLUG. -/
def execAddplug (a b : Nat) (s : State) : Result := complete s (addplugReply a b s.arch)

end Sys2Proof.Machine
end

