-- ==== Sys2Proof/Machine/RuntimeCommands.lean ====
section
/-! DEFINITION. The runtime commands KEY and RDWIN (43_runtime_commands.md) and STEP (41_stepping.md R106). The
reserved-field test of each is the decoder's (30_encoding.md R68, R69). -/

namespace Sys2Proof.Machine

/-- KEY (43_runtime_commands.md R120, R124): a letter steps the bank and is then encoded with the stepped offsets; a
non-letter is dropped and steps nothing. -/
def keyReply (c : Config) (x : Nat) (a : Arch) : Reply :=
  match letterOperand x with
  | none => respond .dropped 0 a
  | some l =>
    let a' := stepBank c a
    respond .ok (zext 24 (pipeline c a' l)) a'

/-- STEP (41_stepping.md R106). -/
def stepReply (c : Config) (a : Arch) : Reply := respond .ok 0 (stepBank c a)

/-- RDWIN (43_runtime_commands.md R121): left in bits 23:16, middle in 15:8, right in 7:0. -/
def rdwinReply (a : Arch) : Reply :=
  respond .ok (zext 8 (window a 0) ++ zext 8 (window a 1) ++ zext 8 (window a 2)) a

/-- The meaning of KEY. -/
def execKey (x : Nat) (s : State) : Result := complete s (keyReply hw x s.arch)
/-- The meaning of STEP. -/
def execStep (s : State) : Result := complete s (stepReply hw s.arch)
/-- The meaning of RDWIN. -/
def execRdwin (s : State) : Result := complete s (rdwinReply s.arch)

end Sys2Proof.Machine
end

