-- ==== Sys2Proof/Machine/Dispatch.lean ====
section
/-! DEFINITION. Each command's meaning (43_runtime_commands.md R125). -/

namespace Sys2Proof.Machine

/-- The effect and the response of a command the core has taken. -/
def exec (i : Instr) (s : State) : Host.Outcome State Fault Refusal :=
  match i with
  | .init => Sys2Proof.Machine.execInit s
  | .setrot pos rid ring start => Sys2Proof.Machine.execSetrot pos rid ring start s
  | .setref ref => Sys2Proof.Machine.execSetref ref s
  | .addplug a b => Sys2Proof.Machine.execAddplug a b s
  | .key x => Sys2Proof.Machine.execKey x s
  | .step => Sys2Proof.Machine.execStep s
  | .rdwin => Sys2Proof.Machine.execRdwin s

end Sys2Proof.Machine
end

