-- ==== Sys2Proof/Machine/Step.lean ====
section
/-! DEFINITION. One step: the core takes what the host presents next and runs it to completion (00_scope.md R5,
20_memory.md R49); with nothing presented it waits (10_state.md R26). -/

namespace Sys2Proof.Machine

/-- One step of the machine. Waiting leaves the state as it is. DEDUCED, safe: notes/assumptions/2. -/
def step (s : State) : Host.Outcome State Fault Refusal :=
  match takeEvent s with
  | none => .next s
  | some (.reset _, s') => .next (hostReset s')
  | some (.command w, s') =>
    match decode w with
    | .ok i => exec i s'
    | .error _ => complete s' (illegalReply s'.arch)

/-- `s` with the low `nbits` bits of `w` presented as the next command word. notes/assumptions/12. -/
def State.withFetchWord (s : State) (nbits w : Nat) : State := presentWord s (BitVec.ofNat CMD_WIDTH (w % 2 ^ nbits))

end Sys2Proof.Machine
end

