-- ==== Sys2Proof/Machine/Exec.lean ====
section
/-! DEFINITION. The core as one function from a state and a command word to a state and a response (00_scope.md R5,
43_runtime_commands.md R125), and a run as its fold. The host wrapper talks to the core through it; that `step` computes
the same is a statement of its own. -/

namespace Sys2Proof.Machine

/-- The reply of a decoded command. -/
def instrReply (i : Instr) (a : Arch) : Reply :=
  match i with
  | .init => initReply hw a
  | .setrot pos rid ring start => setrotReply pos rid ring start a
  | .setref ref => setrefReply ref a
  | .addplug l r => addplugReply l r a
  | .key x => keyReply hw x a
  | .step => stepReply hw a
  | .rdwin => rdwinReply a

/-- `Exec(S, CMD)` (43_runtime_commands.md R125). -/
def coreExec (a : Arch) (w : Word) : Reply :=
  match decode w with
  | .ok i => instrReply i a
  | .error _ => illegalReply a

/-- The fold of `Exec` over a command sequence: the last state and the responses in order (43_runtime_commands.md
R125). -/
def coreRun (a : Arch) : List Word → Arch × List Response
  | [] => (a, [])
  | w :: ws =>
    let r := coreExec a w
    let rest := coreRun r.arch ws
    (rest.1, r.rsp :: rest.2)

end Sys2Proof.Machine
end

