-- ==== Sys2Proof/Machine/HostWrapper.lean ====
section
/-! DEFINITION. The host-side wrapper (44_host_wrapper.md R130 to R138): software around the core, modelled as functions
over `Exec`. No step of the machine calls anything of this file. Text is a list of characters. -/

namespace Sys2Proof.Machine

/-- ASCII upper-casing (44_host_wrapper.md R130, 92_eei_decisions.md D18). -/
def upperAscii (ch : Char) : Char :=
  if 'a'.toNat ≤ ch.toNat ∧ ch.toNat ≤ 'z'.toNat then Char.ofNat (ch.toNat - 'a'.toNat + 'A'.toNat) else ch

/-- ASCII lower-casing (44_host_wrapper.md R135). -/
def lowerAscii (ch : Char) : Char :=
  if 'A'.toNat ≤ ch.toNat ∧ ch.toNat ≤ 'Z'.toNat then Char.ofNat (ch.toNat - 'A'.toNat + 'a'.toNat) else ch

/-- `A(c)`, the index of a capital letter (00_scope.md R7). -/
def capitalIndex (ch : Char) : Option Letter :=
  if 'A'.toNat ≤ ch.toNat then letterOperand (ch.toNat - 'A'.toNat) else none

/-- `L(n)`, the capital of an index (00_scope.md R7). -/
def capital (x : Letter) : Char := Char.ofNat ('A'.toNat + x)

/-- `Normalize(text)` (44_host_wrapper.md R130). -/
def normalizeText (text : List Char) : List Letter := text.filterMap fun ch => capitalIndex (upperAscii ch)

/-- `send(c)` (44_host_wrapper.md, opening paragraph). -/
def send (a : Arch) (w : Word) : Reply := coreExec a w

/-- The word `0x05000000 | x` (44_host_wrapper.md R131). -/
def keyWord (x : Letter) : Word := 0x05000000#32 ||| BitVec.ofNat CMD_WIDTH x

/-- The loop of `Encode`: one KEY per letter, and `rsp[7:0]` of each (44_host_wrapper.md R131). -/
def encodeLetters (a : Arch) : List Letter → Arch × List Letter
  | [] => (a, [])
  | x :: xs =>
    let r := send a (keyWord x)
    let rest := encodeLetters r.arch xs
    (rest.1, mod26 (field r.rsp 7 0) :: rest.2)

/-- `Group(out)` from output index `i` on (44_host_wrapper.md R132). -/
def groupFrom (i : Nat) : List Letter → List Char
  | [] => []
  | x :: xs => (if i > 0 ∧ i % 5 = 0 then [' ', capital x] else [capital x]) ++ groupFrom (i + 1) xs

/-- `Group(out)` (44_host_wrapper.md R132). -/
def groupLetters (out : List Letter) : List Char := groupFrom 0 out

/-- `Encode(text)` (44_host_wrapper.md R131). -/
def encodeText (a : Arch) (text : List Char) : Arch × List Char :=
  let r := encodeLetters a (normalizeText text)
  (r.1, groupLetters r.2)

/-- `rsp[31:24]`, the status code of a response (44_host_wrapper.md R134). -/
def statusField (rsp : Response) : BitVec 8 := rsp.extractLsb 31 24

/-- The letter code of a plug character, 31 for a non-letter (44_host_wrapper.md R134). -/
def plugCode (ch : Char) : Nat :=
  match capitalIndex (upperAscii ch) with
  | some x => x
  | none => 31

/-- `AddPlug(pairText)`: the core's new state and the status code returned (44_host_wrapper.md R134). -/
def addPlugText (a : Arch) (pairText : List Char) : Arch × BitVec 8 :=
  match pairText with
  | [c1, c2] =>
    let r := send a (0x04000000#32 ||| BitVec.ofNat CMD_WIDTH (plugCode c1) <<< 8 ||| BitVec.ofNat CMD_WIDTH (plugCode c2))
    (r.arch, statusField r.rsp)
  | _ => (a, Status.invalidPlugFormat.code)

/-- `AddPlugs(list)`: stops at the first failure and leaves the earlier pairs installed (44_host_wrapper.md R134,
92_eei_decisions.md D22). -/
def addPlugTexts (a : Arch) : List (List Char) → Arch × BitVec 8
  | [] => (a, Status.ok.code)
  | p :: ps =>
    let r := addPlugText a p
    if r.2 = Status.ok.code then addPlugTexts r.1 ps else r

/-- The rotor names, in the order of their numbers (44_host_wrapper.md R135). -/
def rotorNames : List (List Char) :=
  [['I'], ['I', 'I'], ['I', 'I', 'I'], ['I', 'V'], ['V'], ['V', 'I'], ['V', 'I', 'I'], ['V', 'I', 'I', 'I']]

/-- The name of a rotor (30_encoding.md R62). -/
def rotorName (r : RotorId) : List Char := (rotorNames[r.val]?).getD []

/-- The position names, in the order of the slots (44_host_wrapper.md R135). -/
def positionNames : List (List Char) :=
  [['l', 'e', 'f', 't'], ['m', 'i', 'd', 'd', 'l', 'e'], ['r', 'i', 'g', 'h', 't']]

/-- The index of a name in a list of names, or 15 if absent (44_host_wrapper.md R135). -/
def nameIndex (names : List (List Char)) (name : List Char) : Nat :=
  if name ∈ names then names.idxOf name else 15

/-- The `start` field of `SetRotor`, 255 unless the text is one ASCII letter (44_host_wrapper.md R135). -/
def startCode (start : List Char) : Nat :=
  match start with
  | [ch] =>
    match capitalIndex (upperAscii ch) with
    | some x => x
    | none => 255
  | _ => 255

/-- The `ring` field of `SetRotor`, 0 for a number that does not fit (44_host_wrapper.md R135). -/
def ringCode (ring : Int) : Nat := if 0 ≤ ring ∧ ring ≤ 255 then ring.toNat else 0

/-- `SetRotor(name, position, ring, start)` (44_host_wrapper.md R135). -/
def setRotorText (a : Arch) (name position : List Char) (ring : Int) (start : List Char) : Arch × BitVec 8 :=
  let rid := nameIndex rotorNames (name.map upperAscii)
  let pos := nameIndex positionNames (position.map lowerAscii)
  let r := send a (0x02000000#32 ||| BitVec.ofNat CMD_WIDTH pos <<< 20 ||| BitVec.ofNat CMD_WIDTH rid <<< 16
    ||| BitVec.ofNat CMD_WIDTH (ringCode ring) <<< 8 ||| BitVec.ofNat CMD_WIDTH (startCode start))
  (r.arch, statusField r.rsp)

/-- The core and the append counter that the host keeps for `AddRotor` (44_host_wrapper.md R135). -/
structure AppendHost where
  arch : Arch
  n    : Nat
deriving DecidableEq, Repr

/-- The wrapper as it is constructed around a core: no rotor appended yet, "0 at construction" (44_host_wrapper.md
R135). -/
def newAppendHost (a : Arch) : AppendHost := ⟨a, 0⟩

/-- `AddRotor(name, ring, start)` (44_host_wrapper.md R135). -/
def addRotorText (h : AppendHost) (name : List Char) (ring : Int) (start : List Char) : AppendHost × BitVec 8 :=
  if h.n = 3 then (h, Status.tooManyRotors.code)
  else
    let r := setRotorText h.arch name ((positionNames[h.n]?).getD []) ring start
    (⟨r.1, if r.2 = Status.ok.code then h.n + 1 else h.n⟩, r.2)

/-- `SetReflector(name)`: capitals only (44_host_wrapper.md R136). -/
def setReflectorText (a : Arch) (name : List Char) : Arch × BitVec 8 :=
  let ref := if name = ['B'] then 0 else if name = ['C'] then 1 else 255
  let r := send a (0x03000000#32 ||| BitVec.ofNat CMD_WIDTH ref)
  (r.arch, statusField r.rsp)

end Sys2Proof.Machine
end

