-- ==== Sys2Proof/Safety.lean ====
section
/-! DEFINITION. What claims call a good state and a safe run: the invariants of 10_state.md R27, the properties of the
constant tables, and a run that no step stops. -/

namespace Sys2Proof.Machine

/-- `T` is a `Perm` (00_scope.md R11). -/
abbrev Perm (T : Table) : Prop := ∀ i j : Letter, T.entry i = T.entry j → i = j

/-- `T` is its own inverse. -/
abbrev SelfInverse (T : Table) : Prop := ∀ i : Letter, T.entry (T.entry i) = i

/-- `T` maps no letter to itself. -/
abbrev NoFixedPoint (T : Table) : Prop := ∀ i : Letter, T.entry i ≠ i

/-- Invariant I4 (10_state.md R27): every wiring is a bijection and every reflector an involution with no fixed
point. -/
abbrev TablesOk (c : Config) : Prop :=
  (∀ r : RotorId, Perm (c.wiring.entry r)) ∧ ∀ f : ReflId, SelfInverse (c.reflector.entry f) ∧ NoFixedPoint (c.reflector.entry f)

/-- Invariants I1, I2, I3 (10_state.md R27). The types of the registers give I2 and all of I1 but the ring settings'
lower bound. -/
abbrev Arch.Inv (a : Arch) : Prop :=
  (∀ s : Slot, (a.ID.entry s).val ≤ 7 ∧ (1 ≤ (a.RING.entry s).val ∧ (a.RING.entry s).val ≤ 26) ∧
    (a.OFF.entry s).val ≤ 25) ∧
  a.REF.val ≤ 1 ∧ SelfInverse a.PLUG

/-- The invariant of the whole machine: that of the registers. The host's queue and the responses are free. -/
abbrev State.Inv (s : State) : Prop := s.arch.Inv

/-- `b` has the offsets that one step of the bank makes of those of `a`: the table of 41_stepping.md R104, over the
tests of R103. -/
abbrev OffsetsStepped (c : Config) (a b : Arch) : Prop :=
  b.OFF.entry 0 =
    (if a.OFF.entry 1 ∈ c.notch.entry (a.ID.entry 1) then mod26 ((a.OFF.entry 0 : Int) + 1) else a.OFF.entry 0) ∧
  b.OFF.entry 1 =
    (if a.OFF.entry 1 ∈ c.notch.entry (a.ID.entry 1) ∨ a.OFF.entry 2 ∈ c.notch.entry (a.ID.entry 2)
      then mod26 ((a.OFF.entry 1 : Int) + 1) else a.OFF.entry 1) ∧
  b.OFF.entry 2 = mod26 ((a.OFF.entry 2 : Int) + 1)

/-- `n` steps of the machine, as the host runs it. -/
def run (n : Nat) (s : State) : Result := Sys2Proof.core.run n s

/-- A run of `n` steps that no fault and no refusal stops. -/
def SafeRun (n : Nat) (s : State) : Prop := ∃ t : State, run n s = .next t

end Sys2Proof.Machine
end

