-- ==== Sys2Proof/Certificates/Slice0/Obligations.lean ====
section
/-! DEFINITION. The statements for the provers. `exec` and `step` are the machine of Sys2Proof/Machine, `hw` its constant
tables and default configuration. -/

open Sys2Proof Sys2Proof.Machine

/-! ## Decoding and the step around a command -/

/-- The worked encodings of 30_encoding.md R64, in both directions. -/
def Obligations.WorkedEncodingsDecode : Prop :=
  ∀ p ∈ [ (0x01000000#32, Instr.init), (0x02030410#32, Instr.setrot 0 3 4 16), (0x02110903#32, Instr.setrot 1 1 9 3),
          (0x02271307#32, Instr.setrot 2 7 19 7), (0x03000001#32, Instr.setref 1), (0x04000A0B#32, Instr.addplug 10 11),
          (0x05000012#32, Instr.key 18), (0x06000000#32, Instr.step), (0x07000000#32, Instr.rdwin) ],
    decode p.1 = .ok p.2 ∧ encode p.2 = p.1

/-- No bit of a command is lost: the word of a well-formed command decodes to it (30_encoding.md R61 to R63). -/
def Obligations.DecodeOfEncodeIsTheCommand : Prop :=
  ∀ i : Instr, i.WellFormed → decode (encode i) = .ok i

/-- A word means one command at most, and that command's word is it (30_encoding.md R61 to R63, R69). -/
def Obligations.EncodeOfDecodeIsTheWord : Prop :=
  ∀ (w : Word) (i : Instr), decode w = .ok i → i.WellFormed ∧ encode i = w

/-- The decoder accepts exactly the words that some row of the opcode table selects, the row's opcode is the command's,
and no word is selected by two rows (30_encoding.md, opening paragraph). -/
def Obligations.DecoderFollowsTheOpcodeTable : Prop :=
  (∀ w : Word, (∃ i, decode w = .ok i) ↔ ∃ r ∈ opcodeRows, r.selects w = true) ∧
  (∀ (w : Word) (i : Instr), decode w = .ok i → ∀ r ∈ opcodeRows, r.selects w = true → i.opcode = r.opcode) ∧
  (∀ (w : Word), ∀ r ∈ opcodeRows, ∀ r' ∈ opcodeRows, r.selects w = true → r'.selects w = true → r = r')

/-- A presented word that is a command runs as that command, on the state from which the word has been taken
(20_memory.md R49); nothing else is added around it. -/
def Obligations.StepRunsTheDecodedCommand : Prop :=
  ∀ (s : State) (w : Word) (rest : List HostEvent) (i : Instr),
    s.inbox = .command w :: rest → decode w = .ok i → step s = exec i { s with inbox := rest }

/-- The same of a word placed for the next step: the command that the decoder reads from it runs on the state as it
was. That a word is placed AHEAD of the host's queue, so that the very next step takes it, is the model's choice
(notes/assumptions/12, DESIGN CHOICE); 30_encoding.md gives what the word is decoded to. -/
def Obligations.PlacedWordRunsNext : Prop :=
  ∀ (s : State) (w : Nat) (i : Instr), decodeTableWord 32 w = some i → step (s.withFetchWord 32 w) = exec i s

/-- A presented word with an undefined opcode (30_encoding.md R67) or a reserved bit set (R68) is answered
`0x0A000000` and changes no register (43_runtime_commands.md R122). -/
def Obligations.IllegalWordsAnswerIllegalCommand : Prop :=
  ∀ (s : State) (w : Word) (rest : List HostEvent), s.inbox = .command w :: rest →
    (field w 31 24 = 0x00 ∨ 0x08 ≤ field w 31 24 ∨
      (field w 31 24 = 0x01 ∧ field w 23 0 ≠ 0) ∨ (field w 31 24 = 0x03 ∧ field w 23 8 ≠ 0) ∨
      (field w 31 24 = 0x04 ∧ field w 23 16 ≠ 0) ∨ (field w 31 24 = 0x05 ∧ field w 23 8 ≠ 0) ∨
      (field w 31 24 = 0x06 ∧ field w 23 0 ≠ 0) ∨ (field w 31 24 = 0x07 ∧ field w 23 0 ≠ 0)) →
    step s = .next { s with inbox := rest, outbox := s.outbox ++ [0x0A000000#32] }

/-- The reset input restores the default configuration and gives no response, to the command it abandons or otherwise
(70_reset_and_hazards.md R161). That reset is an event of the host's queue is the model's (notes/assumptions/4). -/
def Obligations.ResetEventRestoresDefaultWithoutResponse : Prop :=
  ∀ (s : State) (abandoned : Option Word) (rest : List HostEvent), s.inbox = .reset abandoned :: rest →
    step s = .next { s with arch := State.reset.arch, inbox := rest }

/-- With nothing presented the core waits (10_state.md R26); that waiting is a step is the model's
(notes/assumptions/2). -/
def Obligations.WaitingChangesNothing : Prop :=
  ∀ s : State, s.inbox = [] → step s = .next s

/-! ## The commands -/

/-- INIT (42_config_commands.md R110): every register at its default whatever it was, and OK. -/
def Obligations.InitRestoresTheDefaultConfiguration : Prop :=
  (∀ w : Word, field w 31 24 = 0x01 → decode w = if field w 23 0 = 0 then .ok .init else .error .reservedBits) ∧
  ∀ s : State, ∃ t : State, exec .init s = .next t ∧ t.inbox = s.inbox ∧ t.outbox = s.outbox ++ [0x00000000#32] ∧
    t.arch.ID = #v[2, 1, 0] ∧ t.arch.RING = #v[1, 1, 1] ∧ t.arch.OFF = #v[0, 0, 0] ∧ t.arch.REF = 0 ∧
    ∀ i : Letter, t.arch.PLUG.entry i = i

/-- SETROT (42_config_commands.md R111): its four errors in their order, each leaving the registers, and otherwise the
three registers of the slot `pos` written and nothing else. -/
def Obligations.SetrotInstallsOrReports : Prop :=
  (∀ w : Word, field w 31 24 = 0x02 →
    decode w = .ok (.setrot (field w 23 20) (field w 19 16) (field w 15 8) (field w 7 0))) ∧
  ∀ (s : State) (pos rid ring start : Nat),
    (rid > 7 → exec (.setrot pos rid ring start) s = .next { s with outbox := s.outbox ++ [0x01000000#32] }) ∧
    (rid ≤ 7 → pos > 2 →
      exec (.setrot pos rid ring start) s = .next { s with outbox := s.outbox ++ [0x02000000#32] }) ∧
    (rid ≤ 7 → pos ≤ 2 → (ring < 1 ∨ ring > 26) →
      exec (.setrot pos rid ring start) s = .next { s with outbox := s.outbox ++ [0x03000000#32] }) ∧
    (rid ≤ 7 → pos ≤ 2 → 1 ≤ ring → ring ≤ 26 → start > 25 →
      exec (.setrot pos rid ring start) s = .next { s with outbox := s.outbox ++ [0x04000000#32] }) ∧
    (rid ≤ 7 → pos ≤ 2 → 1 ≤ ring → ring ≤ 26 → start ≤ 25 →
      ∃ t : State, exec (.setrot pos rid ring start) s = .next t ∧ t.inbox = s.inbox ∧
        t.outbox = s.outbox ++ [0x00000000#32] ∧ t.arch.REF = s.arch.REF ∧ t.arch.PLUG = s.arch.PLUG ∧
        ∀ p : Slot,
          (p.val = pos → (t.arch.ID.entry p).val = rid ∧ (t.arch.RING.entry p).val = ring ∧
            (t.arch.OFF.entry p).val = start) ∧
          (p.val ≠ pos → t.arch.ID.entry p = s.arch.ID.entry p ∧ t.arch.RING.entry p = s.arch.RING.entry p ∧
            t.arch.OFF.entry p = s.arch.OFF.entry p))

/-- SETREF (42_config_commands.md R112): `REF` written and nothing else, or UnknownReflector. -/
def Obligations.SetrefSelectsOrReports : Prop :=
  (∀ w : Word, field w 31 24 = 0x03 →
    decode w = if field w 23 8 = 0 then .ok (.setref (field w 7 0)) else .error .reservedBits) ∧
  (∀ (s : State) (ref : Nat), ref > 1 →
    exec (.setref ref) s = .next { s with outbox := s.outbox ++ [0x05000000#32] }) ∧
  ∀ (s : State) (f : ReflId),
    exec (.setref f) s = .next { s with arch := { s.arch with REF := f }, outbox := s.outbox ++ [0x00000000#32] }

/-- ADDPLUG (42_config_commands.md R113): InvalidPlugFormat for a non-letter or equal letters, then DuplicatePlug, and
otherwise two entries of `PLUG` written and nothing else; the pair is unordered, and either order of it is a duplicate
afterwards. -/
def Obligations.AddplugInstallsOrReports : Prop :=
  (∀ w : Word, field w 31 24 = 0x04 →
    decode w = if field w 23 16 = 0 then .ok (.addplug (field w 15 8) (field w 7 0)) else .error .reservedBits) ∧
  (∀ (s : State) (a b : Nat), (a > 25 ∨ b > 25 ∨ a = b) →
    exec (.addplug a b) s = .next { s with outbox := s.outbox ++ [0x06000000#32] }) ∧
  (∀ (s : State) (x y : Letter), x ≠ y → (s.arch.PLUG.entry x ≠ x ∨ s.arch.PLUG.entry y ≠ y) →
    exec (.addplug x y) s = .next { s with outbox := s.outbox ++ [0x07000000#32] }) ∧
  ∀ (s : State) (x y : Letter), x ≠ y → s.arch.PLUG.entry x = x → s.arch.PLUG.entry y = y →
    ∃ t : State, exec (.addplug x y) s = .next t ∧ exec (.addplug y x) s = .next t ∧ t.inbox = s.inbox ∧
      t.outbox = s.outbox ++ [0x00000000#32] ∧ t.arch.ID = s.arch.ID ∧ t.arch.RING = s.arch.RING ∧
      t.arch.OFF = s.arch.OFF ∧ t.arch.REF = s.arch.REF ∧
      t.arch.PLUG.entry x = y ∧ t.arch.PLUG.entry y = x ∧
      (∀ i : Letter, i ≠ x → i ≠ y → t.arch.PLUG.entry i = s.arch.PLUG.entry i) ∧
      exec (.addplug x y) t = .next { t with outbox := t.outbox ++ [0x07000000#32] } ∧
      exec (.addplug y x) t = .next { t with outbox := t.outbox ++ [0x07000000#32] }

/-- KEY (43_runtime_commands.md R120): a non-letter is Dropped and writes nothing; with a letter the offsets step as
41_stepping.md R103 says, nothing else is written, and the letter returned is `Pipeline` of the letter keyed on the
STEPPED state. -/
def Obligations.KeyStepsThenEncodes : Prop :=
  (∀ w : Word, field w 31 24 = 0x05 →
    decode w = if field w 23 8 = 0 then .ok (.key (field w 7 0)) else .error .reservedBits) ∧
  (∀ (s : State) (x : Nat), x > 25 → exec (.key x) s = .next { s with outbox := s.outbox ++ [0x09000000#32] }) ∧
  ∀ (s : State) (x : Letter), ∃ t : State, exec (.key x) s = .next t ∧ t.inbox = s.inbox ∧
    t.arch.ID = s.arch.ID ∧ t.arch.RING = s.arch.RING ∧ t.arch.REF = s.arch.REF ∧ t.arch.PLUG = s.arch.PLUG ∧
    OffsetsStepped hw s.arch t.arch ∧ t.outbox = s.outbox ++ [BitVec.ofNat 32 (pipeline hw t.arch x)]

/-- A presented word `0x050000xx` whose low byte is no letter (43_runtime_commands.md R124) is answered Dropped, with no
step and no letter. -/
def Obligations.NonLetterKeysAreDropped : Prop :=
  ∀ (s : State) (w : Word) (rest : List HostEvent), s.inbox = .command w :: rest → field w 31 8 = 0x050000 →
    field w 7 0 > 25 → step s = .next { s with inbox := rest, outbox := s.outbox ++ [0x09000000#32] }

/-- STEP (41_stepping.md R106) and the stepping rule (R103): the new offsets of each of the three slots, from the offsets
as they are when the command begins; offsets are all that is written. -/
def Obligations.StepAdvancesTheBank : Prop :=
  (∀ w : Word, field w 31 24 = 0x06 → decode w = if field w 23 0 = 0 then .ok .step else .error .reservedBits) ∧
  (∀ s : State, ∃ t : State, exec .step s = .next t ∧ t.inbox = s.inbox ∧ t.outbox = s.outbox ++ [0x00000000#32] ∧
    t.arch.ID = s.arch.ID ∧ t.arch.RING = s.arch.RING ∧ t.arch.REF = s.arch.REF ∧ t.arch.PLUG = s.arch.PLUG ∧
    OffsetsStepped hw s.arch t.arch)

/-- RDWIN (43_runtime_commands.md R121): writes nothing and returns the three offsets, left, middle, right. -/
def Obligations.RdwinReturnsTheWindows : Prop :=
  (∀ w : Word, field w 31 24 = 0x07 → decode w = if field w 23 0 = 0 then .ok .rdwin else .error .reservedBits) ∧
  ∀ s : State, ∃ rsp : Response, exec .rdwin s = .next { s with outbox := s.outbox ++ [rsp] } ∧
    field rsp 31 24 = 0 ∧ field rsp 23 16 = s.arch.OFF.entry 0 ∧ field rsp 15 8 = s.arch.OFF.entry 1 ∧
    field rsp 7 0 = s.arch.OFF.entry 2

/-- Commands that cannot fail (60_exceptions.md R151): in every state, INIT, STEP, RDWIN and KEY with a letter answer with
status OK. -/
def Obligations.InitStepRdwinKeyNeverFail : Prop :=
  ∀ (s : State) (i : Instr), (i = .init ∨ i = .step ∨ i = .rdwin ∨ ∃ x : Letter, i = .key x) →
    ∃ (t : State) (rsp : Response), exec i s = .next t ∧ t.outbox = s.outbox ++ [rsp] ∧ field rsp 31 24 = 0

/-! ## Rules over all commands -/

/-- Every presented word is answered by exactly one response (30_encoding.md R65), whose data is zero unless the word is a
KEY with a letter or an RDWIN; and one whose status is not OK leaves every register and carries no data (60_exceptions.md
R140). -/
def Obligations.EveryWordIsAnsweredOnceAndErrorsWriteNothing : Prop :=
  ∀ (s : State) (w : Word) (rest : List HostEvent), s.inbox = .command w :: rest →
    ∃ (a : Arch) (rsp : Response), step s = .next ⟨a, rest, s.outbox ++ [rsp]⟩ ∧
      (field rsp 31 24 ≠ 0 → a = s.arch ∧ field rsp 23 0 = 0) ∧
      (field rsp 23 0 ≠ 0 → decode w = .ok .rdwin ∨ ∃ x : Letter, decode w = .ok (.key x))

/-- Which command produces which status (30_encoding.md R66; 60_exceptions.md R141 to R150): 1 to 4 SETROT, 5 SETREF, 6
and 7 ADDPLUG, 9 KEY; a decoded command never produces 8, 10 or more. -/
def Obligations.StatusesComeFromTheirCommands : Prop :=
  ∀ (i : Instr) (s t : State) (rsp : Response), exec i s = .next t → t.outbox = s.outbox ++ [rsp] →
    (field rsp 31 24 = 0 ∨
      (field rsp 31 24 = 1 ∧ ∃ pos rid ring start, i = .setrot pos rid ring start ∧ rid > 7) ∨
      (field rsp 31 24 = 2 ∧ ∃ pos rid ring start, i = .setrot pos rid ring start ∧ pos > 2) ∨
      (field rsp 31 24 = 3 ∧ ∃ pos rid ring start, i = .setrot pos rid ring start ∧ (ring = 0 ∨ ring > 26)) ∨
      (field rsp 31 24 = 4 ∧ ∃ pos rid ring start, i = .setrot pos rid ring start ∧ start > 25) ∨
      (field rsp 31 24 = 5 ∧ ∃ ref, i = .setref ref ∧ ref > 1) ∨
      (field rsp 31 24 = 6 ∧ ∃ a b, i = .addplug a b ∧ (a > 25 ∨ b > 25 ∨ a = b)) ∨
      (field rsp 31 24 = 7 ∧ ∃ x y : Letter, i = .addplug x y ∧ x ≠ y ∧
        (s.arch.PLUG.entry x ≠ x ∨ s.arch.PLUG.entry y ≠ y)) ∨
      (field rsp 31 24 = 9 ∧ ∃ x, i = .key x ∧ x > 25))

/-- A command that fails fails again in the same way (60_exceptions.md R155). -/
def Obligations.FailedCommandFailsAgain : Prop :=
  ∀ (i : Instr) (s t : State) (rsp : Response), exec i s = .next t → t.outbox = s.outbox ++ [rsp] →
    field rsp 31 24 ≠ 0 → exec i t = .next { t with outbox := t.outbox ++ [rsp] }

/-- Which commands write which register (10_state.md section 7). -/
def Obligations.RegistersHaveOnlyTheirWriters : Prop :=
  ∀ (i : Instr) (s t : State), exec i s = .next t →
    (t.arch.ID ≠ s.arch.ID → i = .init ∨ ∃ pos rid ring start, i = .setrot pos rid ring start) ∧
    (t.arch.RING ≠ s.arch.RING → i = .init ∨ ∃ pos rid ring start, i = .setrot pos rid ring start) ∧
    (t.arch.OFF ≠ s.arch.OFF → i = .init ∨ (∃ pos rid ring start, i = .setrot pos rid ring start) ∨ i = .step ∨
      ∃ x : Letter, i = .key x) ∧
    (t.arch.REF ≠ s.arch.REF → i = .init ∨ ∃ ref, i = .setref ref) ∧
    (t.arch.PLUG ≠ s.arch.PLUG → i = .init ∨ ∃ a b, i = .addplug a b)

/-- The response of any command but KEY and ADDPLUG says nothing of `ID`, `RING`, `REF` or `PLUG`, and that of any but
KEY, ADDPLUG and RDWIN nothing of the state at all (10_state.md section 7, "host-readable"). -/
def Obligations.ResponsesRevealOnlyTheWindows : Prop :=
  ∀ (i : Instr) (s s' t t' : State) (rsp rsp' : Response), exec i s = .next t → exec i s' = .next t' →
    t.outbox = s.outbox ++ [rsp] → t'.outbox = s'.outbox ++ [rsp'] →
    (∀ x, i ≠ .key x) → (∀ a b, i ≠ .addplug a b) →
    (s.arch.OFF = s'.arch.OFF ∨ i ≠ .rdwin) → rsp = rsp'

/-- Configuration commands do not interact (70_reset_and_hazards.md R163): SETREF, ADDPLUG, SETROTs to distinct slots
and ADDPLUGs of pairs with no letter in common leave the same registers in either order, with the same responses. -/
def Obligations.ConfigurationCommandsCommute : Prop :=
  ∀ (a : Arch) (i j : Instr),
    (((∃ p r n x, i = .setrot p r n x) ∧ ((∃ f, j = .setref f) ∨ ∃ l r, j = .addplug l r)) ∨
      ((∃ f, i = .setref f) ∧ ∃ l r, j = .addplug l r) ∨
      (∃ p r n x p' r' n' x', i = .setrot p r n x ∧ j = .setrot p' r' n' x' ∧ p ≠ p') ∨
      (∃ l r l' r', i = .addplug l r ∧ j = .addplug l' r' ∧ l ≠ l' ∧ l ≠ r' ∧ r ≠ l' ∧ r ≠ r')) →
    (instrReply j (instrReply i a).arch).arch = (instrReply i (instrReply j a).arch).arch ∧
    (instrReply j (instrReply i a).arch).rsp = (instrReply j a).rsp ∧
    (instrReply i (instrReply j a).arch).rsp = (instrReply i a).rsp

/-! ## Reset and invariants -/

/-- The reset values of 70_reset_and_hazards.md R160; the slots of rotors III, II, I are the spec's decision D10
(notes/assumptions/8), and the empty queue and response list are the model's (notes/assumptions/1, 3). -/
def Obligations.ResetHoldsTheDefaultConfiguration : Prop :=
  State.reset.arch.ID.entry 0 = 2 ∧ State.reset.arch.ID.entry 1 = 1 ∧ State.reset.arch.ID.entry 2 = 0 ∧
  (∀ s : Slot, (State.reset.arch.RING.entry s).val = 1 ∧ State.reset.arch.OFF.entry s = 0) ∧
  State.reset.arch.REF = 0 ∧ (∀ i : Letter, State.reset.arch.PLUG.entry i = i) ∧
  State.reset.inbox = [] ∧ State.reset.outbox = []

/-- The invariants hold after reset (10_state.md R27). -/
def Obligations.InvHoldsAtReset : Prop := State.reset.Inv

/-- Every step keeps the invariants (10_state.md R27): the ring settings stay in 1..26 and the plugboard map stays an
involution, whatever the host presents. -/
def Obligations.EveryStepKeepsTheInvariants : Prop :=
  ∀ s t : State, s.Inv → step s = .next t → t.Inv

/-- Invariant I4 (10_state.md R27; 20_memory.md R41, R42): every wiring of this hardware is a bijection and every
reflector an involution without fixed point. -/
def Obligations.HardwareTablesAreSound : Prop := TablesOk hw

/-- No run of any length is stopped, from any state. For the steps that take a command this is 43_runtime_commands.md
R125 ("total"). The rest is the model's: that a run goes on past the end of the inbox, because waiting is a step
(notes/assumptions/2, DEDUCED); that a reset is an event which takes a step (notes/assumptions/4, DEDUCED); and that no
fault and no refusal exists for a step to answer (notes/assumptions/16, DEDUCED). -/
def Obligations.EveryRunIsSafe : Prop := ∀ (n : Nat) (s : State), SafeRun n s

/-- One step on a presented word is `Exec` of R125. -/
def Obligations.StepComputesExec : Prop :=
  ∀ (a : Arch) (w : Word) (rest : List HostEvent) (out : List Response),
    step ⟨a, .command w :: rest, out⟩ = .next ⟨(coreExec a w).arch, rest, out ++ [(coreExec a w).rsp]⟩

/-- "A run of the core is the fold of `Exec` over the host's command sequence" (43_runtime_commands.md R125). -/
def Obligations.RunIsTheFoldOfExec : Prop :=
  ∀ (ws : List Word) (a : Arch) (rest : List HostEvent) (out : List Response),
    run ws.length ⟨a, ws.map .command ++ rest, out⟩ =
      .next ⟨(coreRun a ws).1, rest, out ++ (coreRun a ws).2⟩

/-! ## The plugboard -/

/-- The plugboard holds at most 13 pairs, with 13 installed every further pair of letters is a duplicate
(42_config_commands.md R114), and an ADDPLUG that answers OK installs exactly one pair. -/
def Obligations.PlugboardHoldsThirteenPairs : Prop :=
  (∀ a : Arch, pairCount a ≤ MAXPLUGS) ∧
  (∀ (s : State) (x y : Letter), x ≠ y → pairCount s.arch = MAXPLUGS →
    exec (.addplug x y) s = .next { s with outbox := s.outbox ++ [0x07000000#32] }) ∧
  (∀ (s t : State) (a b : Nat), exec (.addplug a b) s = .next t → t.outbox = s.outbox ++ [0x00000000#32] →
    pairCount t.arch = pairCount s.arch + 1)

/-! ## The datapath -/

/-- `mod26(n)` (00_scope.md R8): the unique letter congruent to `n`, not a truncating remainder. -/
def Obligations.Mod26IsTheUniqueResidue : Prop :=
  (∀ (n : Int) (m : Letter), mod26 n = m ↔ (26 : Int) ∣ n - m) ∧
  mod26 (-1) = 25 ∧ mod26 (-27) = 25 ∧ mod26 26 = 0

/-- `T⁻¹` (40_datapath.md R81): for a permutation it undoes the table in both orders, and is the only table that does; it
is a permutation whose inverse is the table. -/
def Obligations.InverseIsTheUniqueUndoingTable : Prop :=
  ∀ T : Table, Perm T →
    (∀ U : Table, (∀ i : Letter, U.entry (T.entry i) = i) ↔ U = inverse T) ∧
    (∀ j : Letter, T.entry ((inverse T).entry j) = j) ∧ Perm (inverse T) ∧ inverse (inverse T) = T

/-- `Shift(T, k)` (40_datapath.md R82), by its two formulas. -/
def Obligations.ShiftMovesIndexAndValue : Prop :=
  ∀ (T : Table) (k : Int) (i : Letter),
    (shift T k).entry i = mod26 ((T.entry (mod26 ((i : Int) - k)) : Int) + k) ∧
    (shift T k).entry (mod26 ((i : Int) + k)) = mod26 ((T.entry i : Int) + k)

/-- The laws of `Shift` (40_datapath.md R83 a to e). -/
def Obligations.ShiftLaws : Prop :=
  ∀ (T : Table) (k l : Int),
    shift T 0 = T ∧ shift (shift T k) l = shift T (k + l) ∧ shift T k = shift T (mod26 k : Letter) ∧
    (Perm T → Perm (shift T k) ∧ inverse (shift T k) = shift (inverse T) k) ∧
    (SelfInverse T ∧ NoFixedPoint T → SelfInverse (shift T k) ∧ NoFixedPoint (shift T k))

/-- The current table depends on the ring and the offset through their difference (40_datapath.md R85). -/
def Obligations.CurrentTableIsOneShift : Prop :=
  ∀ (c : Config) (a : Arch) (s : Slot),
    cur c a s = shift (eff c (a.ID.entry s) (a.RING.entry s)) (-(a.OFF.entry s : Int)) ∧
    cur c a s = shift (c.wiring.entry (a.ID.entry s)) ((a.RING.entry s : Int) - 1 - (a.OFF.entry s : Int))

/-- `RotFwd` and `RotInv` (40_datapath.md R86, R87), by the three formulas of each. -/
def Obligations.RotorEncodeFormulas : Prop :=
  ∀ (a : Arch) (s : Slot) (x : Letter),
    rotFwd hw a s x = (cur hw a s).entry x ∧
    rotFwd hw a s x = mod26 (((eff hw (a.ID.entry s) (a.RING.entry s)).entry
      (mod26 ((x : Int) + (a.OFF.entry s : Int))) : Int) - (a.OFF.entry s : Int)) ∧
    rotFwd hw a s x = mod26 (((hw.wiring.entry (a.ID.entry s)).entry
      (mod26 ((x : Int) + (a.OFF.entry s : Int) - (a.RING.entry s : Int) + 1)) : Int) - (a.OFF.entry s : Int)
        + (a.RING.entry s : Int) - 1) ∧
    rotInv hw a s x = (inverse (cur hw a s)).entry x ∧
    rotInv hw a s x = mod26 (((inverse (eff hw (a.ID.entry s) (a.RING.entry s))).entry
      (mod26 ((x : Int) + (a.OFF.entry s : Int))) : Int) - (a.OFF.entry s : Int)) ∧
    rotInv hw a s x = mod26 (((inverse (hw.wiring.entry (a.ID.entry s))).entry
      (mod26 ((x : Int) + (a.OFF.entry s : Int) - (a.RING.entry s : Int) + 1)) : Int) - (a.OFF.entry s : Int)
        + (a.RING.entry s : Int) - 1)

/-- The required inverse property of a rotor (40_datapath.md R88), in every state. -/
def Obligations.RotorInverseUndoesForward : Prop :=
  ∀ (a : Arch) (s : Slot) (x : Letter), rotInv hw a s (rotFwd hw a s x) = x ∧ rotFwd hw a s (rotInv hw a s x) = x

/-- The bank's two directions (40_datapath.md R89, R90): right to left, left to right, and the second undoes the
first. -/
def Obligations.BankInverseUndoesForward : Prop :=
  ∀ (a : Arch) (x : Letter),
    bankFwd hw a x = rotFwd hw a 0 (rotFwd hw a 1 (rotFwd hw a 2 x)) ∧
    bankInv hw a x = rotInv hw a 2 (rotInv hw a 1 (rotInv hw a 0 x)) ∧ bankInv hw a (bankFwd hw a x) = x

/-- The reflector (40_datapath.md R91): one lookup, an involution without fixed point; B joins A and Y. -/
def Obligations.ReflectorIsAFixedPointFreeInvolution : Prop :=
  ∀ (a : Arch) (y : Letter), reflect hw a y = (hw.reflector.entry a.REF).entry y ∧
    reflect hw a (reflect hw a y) = y ∧ reflect hw a y ≠ y ∧
    (a.REF = 0 → reflect hw a 0 = 24 ∧ reflect hw a 24 = 0)

/-- The plugboard lookup (40_datapath.md R92): the stored map's entry, its own inverse in every state that satisfies the
invariants. -/
def Obligations.PlugIsItsOwnInverse : Prop :=
  ∀ (a : Arch) (x : Letter), plug a x = a.PLUG.entry x ∧ (a.Inv → plug a (plug a x) = x)

/-- The pipeline's order (40_datapath.md R93): plug, right, middle, left, reflector, left, middle, right, plug; with the
worked example of the rule, letter by letter (P L A W N T G T T). -/
def Obligations.PipelineRunsItsNineLookupsInOrder : Prop :=
  (∀ (c : Config) (a : Arch) (x : Letter), pipeline c a x =
    plug a (rotInv c a 2 (rotInv c a 1 (rotInv c a 0 (reflect c a
      (rotFwd c a 0 (rotFwd c a 1 (rotFwd c a 2 (plug a x))))))))) ∧
  ∀ a : Arch, a.ID = #v[4, 2, 1] → a.RING = #v[6, 25, 14] → a.OFF = #v[25, 2, 9] → a.REF = 1 →
    (∀ i : Letter, i.val < 20 → a.PLUG.entry i = i) →
    plug a 15 = 15 ∧ rotFwd hw a 2 15 = 11 ∧ rotFwd hw a 1 11 = 0 ∧ rotFwd hw a 0 0 = 22 ∧ reflect hw a 22 = 13 ∧
      rotInv hw a 0 13 = 19 ∧ rotInv hw a 1 19 = 6 ∧ rotInv hw a 2 6 = 19 ∧ pipeline hw a 15 = 19

/-- The pipeline (40_datapath.md R94) at any fixed state that satisfies the invariants, for any sound tables: a bijection,
an involution, and no letter encodes to itself. -/
def Obligations.PipelineIsAFixedPointFreeInvolution : Prop :=
  ∀ (c : Config) (a : Arch), TablesOk c → a.Inv →
    Function.Bijective (pipeline c a) ∧ (∀ x : Letter, pipeline c a (pipeline c a x) = x) ∧
    ∀ x : Letter, pipeline c a x ≠ x

/-- No KEY returns the letter keyed (43_runtime_commands.md R120, corner cases; 40_datapath.md R94 c). -/
def Obligations.KeyNeverReturnsTheLetterKeyed : Prop :=
  ∀ (s : State) (x : Letter), s.Inv → ∃ (t : State) (y : Letter), exec (.key x) s = .next t ∧
    t.outbox = s.outbox ++ [BitVec.ofNat 32 y] ∧ y ≠ x

/-! ## Stepping -/

/-- `Rotate(s)` (41_stepping.md R101): one offset moves by one and wraps, nothing else is written, 26 rotations are none,
and the current table shifts by -1. -/
def Obligations.RotateAdvancesOneOffset : Prop :=
  ∀ (c : Config) (a : Arch) (s : Slot),
    (rotate s a).OFF.entry s = mod26 ((a.OFF.entry s : Int) + 1) ∧
    (a.OFF.entry s = 25 → (rotate s a).OFF.entry s = 0) ∧
    (∀ p : Slot, p ≠ s → (rotate s a).OFF.entry p = a.OFF.entry p) ∧
    (rotate s a).ID = a.ID ∧ (rotate s a).RING = a.RING ∧ (rotate s a).REF = a.REF ∧ (rotate s a).PLUG = a.PLUG ∧
    (rotate s)^[26] a = a ∧ cur c (rotate s a) s = shift (cur c a s) (-1)

/-- A start position is that many rotations from offset 0 (41_stepping.md R102), for every letter. -/
def Obligations.StartPositionIsThatManyRotations : Prop :=
  ∀ (a : Arch) (s : Slot) (x : Letter), (rotate s)^[x.val] (a.setOFF s 0) = a.setOFF s x

/-- The double step (41_stepping.md R105): right rotor on a notch, middle rotor one before its own and not on one; then
over two keypresses (KEY or STEP) the middle rotor advances twice and the left rotor once, on the second. -/
def Obligations.DoubleStepAdvancesTheMiddleTwice : Prop :=
  ∀ (s : State) (i j : Instr), (i = .step ∨ ∃ x : Letter, i = .key x) → (j = .step ∨ ∃ x : Letter, j = .key x) →
    s.arch.OFF.entry 2 ∈ hw.notch.entry (s.arch.ID.entry 2) →
    s.arch.OFF.entry 1 ∉ hw.notch.entry (s.arch.ID.entry 1) →
    mod26 ((s.arch.OFF.entry 1 : Int) + 1) ∈ hw.notch.entry (s.arch.ID.entry 1) →
    ∃ t u : State, exec i s = .next t ∧ exec j t = .next u ∧
      t.arch.OFF.entry 1 = mod26 ((s.arch.OFF.entry 1 : Int) + 1) ∧ t.arch.OFF.entry 0 = s.arch.OFF.entry 0 ∧
      u.arch.OFF.entry 1 = mod26 ((s.arch.OFF.entry 1 : Int) + 2) ∧
      u.arch.OFF.entry 0 = mod26 ((s.arch.OFF.entry 0 : Int) + 1)

/-- Stepping reads the offsets and the numbers of the middle and right rotors, and nothing else: not the left rotor's
number, a ring setting, the reflector or the plugboard (41_stepping.md R103; 95_test_vectors.md section 4.3). -/
def Obligations.SteppingReadsOnlyOffsetsAndTwoRotors : Prop :=
  ∀ (s s' t t' : State), s.arch.OFF = s'.arch.OFF → s.arch.ID.entry 1 = s'.arch.ID.entry 1 →
    s.arch.ID.entry 2 = s'.arch.ID.entry 2 → exec .step s = .next t → exec .step s' = .next t' →
    t.arch.OFF = t'.arch.OFF

/-- The offsets after a message depend on the state and the number of letters, not on which letters were keyed
(44_host_wrapper.md R137), and there is one letter out for each letter in. -/
def Obligations.KeyedLettersDoNotChangeTheStepping : Prop :=
  ∀ (a : Arch) (m : List Letter), (encodeLetters a m).1 = (stepBank hw)^[m.length] a ∧
    (encodeLetters a m).2.length = m.length

/-! ## Messages and the host wrapper -/

/-- Reciprocity (44_host_wrapper.md R137): from any state that satisfies the invariants, keying the letters a message
encoded to, from that same state, gives the message back. -/
def Obligations.EncodingTwiceFromTheSameStateGivesTheMessage : Prop :=
  ∀ (a : Arch) (m : List Letter), a.Inv → (encodeLetters a (encodeLetters a m).2).2 = m

/-- The grouping law (44_host_wrapper.md R132). -/
def Obligations.GroupedOutputHasTheLawfulLength : Prop :=
  (∀ out : List Letter, out ≠ [] → (groupLetters out).length = out.length + (out.length - 1) / 5) ∧ groupLetters [] = []

/-- Encoding a text and its normalised form from the same state is the same (44_host_wrapper.md R133). -/
def Obligations.EncodeIgnoresCaseAndNonLetters : Prop :=
  ∀ (a : Arch) (text : List Char), encodeText a text = encodeText a ((normalizeText text).map capital)

/-- The append style (44_host_wrapper.md R135): on a wrapper as it is constructed, three appended rotors fill left, middle and right, and a fourth is
TooManyRotors (60_exceptions.md R148) without a command. -/
def Obligations.AppendedRotorsFillLeftMiddleRight : Prop :=
  ∀ (a : Arch) (r0 r1 r2 : RotorId) (n0 n1 n2 : RingSetting) (x0 x1 x2 : Letter), 1 ≤ n0.val → 1 ≤ n1.val → 1 ≤ n2.val →
    let h1 := addRotorText (newAppendHost a) (rotorName r0) (n0 : Int) [capital x0]
    let h2 := addRotorText h1.1 (rotorName r1) (n1 : Int) [capital x1]
    let h3 := addRotorText h2.1 (rotorName r2) (n2 : Int) [capital x2]
    h1.2 = 0x00#8 ∧ h2.2 = 0x00#8 ∧ h3.2 = 0x00#8 ∧
    h3.1 = ⟨⟨#v[r0, r1, r2], #v[n0, n1, n2], #v[x0, x1, x2], a.REF, a.PLUG⟩, 3⟩ ∧
    ∀ (name start : List Char) (ring : Int), addRotorText h3.1 name ring start = (h3.1, 0x08#8)

/-- `AddPlug` (44_host_wrapper.md R134): a text that is not two characters sends no command; two letters in either case
send the ADDPLUG of those letters; two characters of which one at least is no letter send the ADDPLUG with code 31 in the
place of each that is none, which answers InvalidPlugFormat and changes no register. -/
def Obligations.PlugTextsSendTheirPair : Prop :=
  (∀ (a : Arch) (p : List Char), p.length ≠ 2 → addPlugText a p = (a, 0x06#8)) ∧
  (∀ (a : Arch) (x y : Letter) (c d : Char), (c = capital x ∨ c = lowerAscii (capital x)) →
    (d = capital y ∨ d = lowerAscii (capital y)) →
    addPlugText a [c, d] = ((instrReply (.addplug x y) a).arch, statusField (instrReply (.addplug x y) a).rsp)) ∧
  (∀ c : Char, (∀ x : Letter, c ≠ capital x ∧ c ≠ lowerAscii (capital x)) → plugCode c = 31) ∧
  ∀ (a : Arch) (c d : Char),
    addPlugText a [c, d] = ((coreExec a (encode (.addplug (plugCode c) (plugCode d)))).arch,
      statusField (coreExec a (encode (.addplug (plugCode c) (plugCode d)))).rsp) ∧
    (((∀ x : Letter, c ≠ capital x ∧ c ≠ lowerAscii (capital x)) ∨
        (∀ x : Letter, d ≠ capital x ∧ d ≠ lowerAscii (capital x))) →
      addPlugText a [c, d] = (a, 0x06#8))
end

