-- ==== Sys2Proof/Laws/State.lean ====
section
/-! SUPPORT. The small lemmas of the register writes and of the state's updates: one per field per update. -/

namespace Sys2Proof.Machine

variable (a : Arch) (s t : Slot) (i j x : Letter) (r : RotorId) (n : RingSetting) (f : ReflId)

@[simp] theorem setID_RING : (a.setID s r).RING = a.RING := rfl
@[simp] theorem setID_OFF : (a.setID s r).OFF = a.OFF := rfl
@[simp] theorem setID_REF : (a.setID s r).REF = a.REF := rfl
@[simp] theorem setID_PLUG : (a.setID s r).PLUG = a.PLUG := rfl
@[simp] theorem setRING_ID : (a.setRING s n).ID = a.ID := rfl
@[simp] theorem setRING_OFF : (a.setRING s n).OFF = a.OFF := rfl
@[simp] theorem setRING_REF : (a.setRING s n).REF = a.REF := rfl
@[simp] theorem setRING_PLUG : (a.setRING s n).PLUG = a.PLUG := rfl
@[simp] theorem setOFF_ID : (a.setOFF s x).ID = a.ID := rfl
@[simp] theorem setOFF_RING : (a.setOFF s x).RING = a.RING := rfl
@[simp] theorem setOFF_REF : (a.setOFF s x).REF = a.REF := rfl
@[simp] theorem setOFF_PLUG : (a.setOFF s x).PLUG = a.PLUG := rfl
@[simp] theorem setREF_ID : (a.setREF f).ID = a.ID := rfl
@[simp] theorem setREF_RING : (a.setREF f).RING = a.RING := rfl
@[simp] theorem setREF_OFF : (a.setREF f).OFF = a.OFF := rfl
@[simp] theorem setREF_REF : (a.setREF f).REF = f := rfl
@[simp] theorem setREF_PLUG : (a.setREF f).PLUG = a.PLUG := rfl
@[simp] theorem setPLUG_ID : (a.setPLUG i x).ID = a.ID := rfl
@[simp] theorem setPLUG_RING : (a.setPLUG i x).RING = a.RING := rfl
@[simp] theorem setPLUG_OFF : (a.setPLUG i x).OFF = a.OFF := rfl
@[simp] theorem setPLUG_REF : (a.setPLUG i x).REF = a.REF := rfl

/-- A vector entry after a write, at a `Fin` index. -/
theorem vector_set_get {α : Type} {k : Nat} (v : Vector α k) (p q : Fin k) (y : α) :
    (v.set p y).entry q = if q = p then y else v.entry q := by
  simp only [Vector.entry, Fin.getElem_fin, Vector.getElem_set, Fin.ext_iff]
  split <;> split <;> first | rfl | omega

@[simp] theorem setID_ID_get : (a.setID s r).ID.entry t = if t = s then r else a.ID.entry t := vector_set_get ..
@[simp] theorem setRING_RING_get : (a.setRING s n).RING.entry t = if t = s then n else a.RING.entry t := vector_set_get ..
@[simp] theorem setOFF_OFF_get : (a.setOFF s x).OFF.entry t = if t = s then x else a.OFF.entry t := vector_set_get ..
@[simp] theorem setPLUG_PLUG_get : (a.setPLUG i x).PLUG.entry j = if j = i then x else a.PLUG.entry j := vector_set_get ..

/-- A vector built entry by entry, at a `Fin` index. -/
@[simp] theorem ofFn_get {α : Type} {k : Nat} (g : Fin k → α) (p : Fin k) : (Vector.ofFn g).entry p = g p := by
  simp [Vector.entry]

/-- Two vectors with the same entries are the same. -/
theorem vector_ext {α : Type} {k : Nat} {v w : Vector α k} (h : ∀ p : Fin k, v.entry p = w.entry p) : v = w :=
  Vector.ext fun p hp => h ⟨p, hp⟩

@[simp] theorem noPlugs_get : noPlugs.entry i = i := ofFn_get ..

variable (S : State) (w : Word) (e : Reply)

@[simp] theorem hostReset_arch : (hostReset S).arch = Arch.default hw := rfl
@[simp] theorem hostReset_inbox : (hostReset S).inbox = S.inbox := rfl
@[simp] theorem hostReset_outbox : (hostReset S).outbox = S.outbox := rfl
@[simp] theorem presentWord_arch : (presentWord S w).arch = S.arch := rfl
@[simp] theorem presentWord_inbox : (presentWord S w).inbox = .command w :: S.inbox := rfl
@[simp] theorem presentWord_outbox : (presentWord S w).outbox = S.outbox := rfl

/-- Completing a command always answers a next state, with the reply's registers and one more response. -/
theorem complete_eq : complete S e = .next ⟨e.arch, S.inbox, S.outbox ++ [e.rsp]⟩ := rfl

end Sys2Proof.Machine
end

