-- ==== Sys2Proof/Laws/Datapath.lean ====
section
/-! SUPPORT. The lemmas of the datapath: `mod26` is a ring map to `ZMod`-like arithmetic, what an entry of `Shift` and of
an inverse is, and which registers each function reads. -/

namespace Sys2Proof.Machine

/-- `mod26` leaves a letter's own index alone. -/
@[simp] theorem mod26_letter (x : Letter) : mod26 (x : Int) = x := by
  apply Fin.ext; simp only [mod26]; omega

/-- Equal residues are exactly equal letters. -/
theorem mod26_eq_iff (m n : Int) : mod26 m = mod26 n ↔ m % 26 = n % 26 := by
  simp only [mod26, Fin.mk.injEq]; omega

/-- The integer value of a reduced index. -/
theorem mod26_val (n : Int) : ((mod26 n : Letter) : Int) = n % 26 := by
  simp only [mod26]; omega

/-- Reducing an addend first changes nothing. -/
@[simp] theorem mod26_add_mod26 (m n : Int) : mod26 ((mod26 m : Int) + n) = mod26 (m + n) := by
  rw [mod26_eq_iff, mod26_val]; omega

/-- Reducing a minuend first changes nothing. -/
@[simp] theorem mod26_mod26_sub (m n : Int) : mod26 ((mod26 m : Int) - n) = mod26 (m - n) := by
  rw [mod26_eq_iff, mod26_val]; omega

/-- An entry of `Shift(T, k)`. -/
@[simp] theorem shift_get (T : Table) (k : Int) (j : Letter) :
    (shift T k).entry j = mod26 ((T.entry (mod26 ((j : Int) - k)) : Int) + k) := ofFn_get ..

/-- The place of `j` in a table that holds it at `i` alone is `i`. -/
theorem inverse_get_of_perm {T : Table} (hT : Perm T) (i : Letter) : (inverse T).entry (T.entry i) = i := by
  have hmem : T.entry i ∈ T.toList := by simp [Vector.entry]
  have hlt : T.toList.idxOf (T.entry i) < T.toList.length := List.idxOf_lt_length_of_mem hmem
  have hlt' : T.toList.idxOf (T.entry i) < 26 := by simpa using hlt
  have hget : T.entry (⟨T.toList.idxOf (T.entry i), hlt'⟩ : Letter) = T.entry i := by
    simp only [Vector.entry, Fin.getElem_fin]
    exact List.getElem_idxOf hlt
  have hk := hT _ _ hget
  unfold inverse
  rw [ofFn_get]
  apply Fin.ext
  have := congrArg Fin.val hk
  simp only [mod26] at this ⊢
  omega

/-- A permutation takes every letter as a value. -/
theorem perm_surjective {T : Table} (hT : Perm T) (j : Letter) : ∃ i : Letter, T.entry i = j :=
  Finite.surjective_of_injective (f := fun i : Letter => T.entry i) (fun _ _ h => hT _ _ h) j

/-- The other order: the table undoes its inverse. -/
theorem get_inverse_of_perm {T : Table} (hT : Perm T) (j : Letter) : T.entry ((inverse T).entry j) = j := by
  obtain ⟨i, rfl⟩ := perm_surjective hT j
  rw [inverse_get_of_perm hT]

/-- Shifting keeps a table bijective. -/
theorem shift_perm {T : Table} (hT : Perm T) (k : Int) : Perm (shift T k) := by
  intro i j h
  rw [shift_get, shift_get, mod26_eq_iff] at h
  have := hT (mod26 (i - k)) (mod26 (j - k)) (Fin.ext (by omega))
  rw [mod26_eq_iff] at this
  exact Fin.ext (by omega)

/-- The current table of a slot is bijective when the wirings are. -/
theorem cur_perm {c : Config} (hc : TablesOk c) (a : Arch) (s : Slot) : Perm (cur c a s) :=
  shift_perm (shift_perm (hc.1 _) _) _

/-- The datapath reads `ID`, `RING` and `OFF` of a slot and nothing else of it. -/
theorem cur_congr (c : Config) {a b : Arch} {s : Slot} (hi : a.ID.entry s = b.ID.entry s) (hr : a.RING.entry s = b.RING.entry s)
    (ho : a.OFF.entry s = b.OFF.entry s) : cur c a s = cur c b s := by
  simp only [cur, hi, hr, ho]

end Sys2Proof.Machine
end

