-- ==== Sys2Proof/Laws/Stepping.lean ====
section
/-! SUPPORT. What rotating a slot and stepping the bank change, and what they leave alone. -/

namespace Sys2Proof.Machine

variable (c : Config) (a : Arch) (s t : Slot)

@[simp] theorem rotate_ID : (rotate s a).ID = a.ID := rfl
@[simp] theorem rotate_RING : (rotate s a).RING = a.RING := rfl
@[simp] theorem rotate_REF : (rotate s a).REF = a.REF := rfl
@[simp] theorem rotate_PLUG : (rotate s a).PLUG = a.PLUG := rfl

@[simp] theorem rotate_OFF_get :
    (rotate s a).OFF.entry t = if t = s then mod26 ((a.OFF.entry s : Int) + 1) else a.OFF.entry t := setOFF_OFF_get ..

/-- Stepping writes offsets only (41_stepping.md R103). -/
@[simp] theorem stepBank_ID : (stepBank c a).ID = a.ID := by unfold stepBank; grind [rotate_ID]
@[simp] theorem stepBank_RING : (stepBank c a).RING = a.RING := by unfold stepBank; grind [rotate_RING]
@[simp] theorem stepBank_REF : (stepBank c a).REF = a.REF := by unfold stepBank; grind [rotate_REF]
@[simp] theorem stepBank_PLUG : (stepBank c a).PLUG = a.PLUG := by unfold stepBank; grind [rotate_PLUG]

/-- The left rotor moves when the middle rotor is on a notch. -/
theorem stepBank_OFF_left :
    (stepBank c a).OFF.entry 0 = if atNotch c a 1 then mod26 ((a.OFF.entry 0 : Int) + 1) else a.OFF.entry 0 := by
  unfold stepBank; cases atNotch c a 1 <;> cases atNotch c a 2 <;> simp

/-- The middle rotor moves when it is on a notch or the right rotor is. -/
theorem stepBank_OFF_middle :
    (stepBank c a).OFF.entry 1 =
      if atNotch c a 1 || atNotch c a 2 then mod26 ((a.OFF.entry 1 : Int) + 1) else a.OFF.entry 1 := by
  unfold stepBank; cases atNotch c a 1 <;> cases atNotch c a 2 <;> simp

/-- The right rotor always moves. -/
theorem stepBank_OFF_right : (stepBank c a).OFF.entry 2 = mod26 ((a.OFF.entry 2 : Int) + 1) := by
  unfold stepBank; cases atNotch c a 1 <;> cases atNotch c a 2 <;> simp

end Sys2Proof.Machine
end

