-- ==== Sys2Proof/Laws/Commands.lean ====
section
/-! SUPPORT. The operand ranges as equivalences, and the one shape every command's meaning has. -/

namespace Sys2Proof.Machine

theorem slotOperand_eq_none (n : Nat) : slotOperand n = none ↔ 2 < n := by
  unfold slotOperand; grind

theorem slotOperand_eq_some (n : Nat) (p : Slot) : slotOperand n = some p ↔ n = p := by
  unfold slotOperand; grind

theorem rotorOperand_eq_none (n : Nat) : rotorOperand n = none ↔ 7 < n := by
  unfold rotorOperand; grind

theorem rotorOperand_eq_some (n : Nat) (r : RotorId) : rotorOperand n = some r ↔ n = r := by
  unfold rotorOperand; grind

theorem ringOperand_eq_none (n : Nat) : ringOperand n = none ↔ n < 1 ∨ 26 < n := by
  unfold ringOperand; grind

theorem ringOperand_eq_some (n : Nat) (k : RingSetting) : ringOperand n = some k ↔ n = k ∧ 1 ≤ n := by
  unfold ringOperand; grind

theorem letterOperand_eq_none (n : Nat) : letterOperand n = none ↔ 25 < n := by
  unfold letterOperand; grind

theorem letterOperand_eq_some (n : Nat) (x : Letter) : letterOperand n = some x ↔ n = x := by
  unfold letterOperand; grind

@[simp] theorem letterOperand_letter (x : Letter) : letterOperand x = some x := (letterOperand_eq_some _ _).2 rfl

theorem reflOperand_eq_none (n : Nat) : reflOperand n = none ↔ 1 < n := by
  unfold reflOperand; grind

theorem reflOperand_eq_some (n : Nat) (f : ReflId) : reflOperand n = some f ↔ n = f := by
  unfold reflOperand; grind

/-- Every command completes with its reply; no command stops. -/
theorem exec_eq_complete (i : Instr) (s : State) : exec i s = complete s (instrReply i s.arch) := by
  cases i <;> rfl

/-- What a command that answers has answered. -/
theorem exec_next {i : Instr} {s t : State} (h : exec i s = .next t) :
    t.arch = (instrReply i s.arch).arch ∧ t.inbox = s.inbox ∧ t.outbox = s.outbox ++ [(instrReply i s.arch).rsp] := by
  rw [exec_eq_complete, complete_eq] at h
  cases h
  exact ⟨rfl, rfl, rfl⟩

/-- The four ways SETROT can be refused leave the registers, and otherwise it writes one slot; which of the two happens
does not depend on the state. -/
theorem setrotReply_cases (pos rid ring start : Nat) :
    (∃ st, st ≠ Status.ok ∧ ∀ a, setrotReply pos rid ring start a = raise st a) ∨
    ∃ (p : Slot) (r : RotorId) (n : RingSetting) (x : Letter), pos = p ∧ rid = r ∧ ring = n ∧ 1 ≤ ring ∧ start = x ∧
      ∀ a, setrotReply pos rid ring start a = respond .ok 0 (((a.setID p r).setRING p n).setOFF p x) := by
  unfold setrotReply
  cases hr : rotorOperand rid with
  | none => exact .inl ⟨.unknownRotor, by decide, fun _ => rfl⟩
  | some r =>
    cases hp : slotOperand pos with
    | none => exact .inl ⟨.unknownPosition, by decide, fun _ => rfl⟩
    | some p =>
      cases hn : ringOperand ring with
      | none => exact .inl ⟨.invalidRingSetting, by decide, fun _ => rfl⟩
      | some n =>
        cases hx : letterOperand start with
        | none => exact .inl ⟨.invalidStartPosition, by decide, fun _ => rfl⟩
        | some x =>
          rw [rotorOperand_eq_some] at hr
          rw [slotOperand_eq_some] at hp
          rw [ringOperand_eq_some] at hn
          rw [letterOperand_eq_some] at hx
          exact .inr ⟨p, r, n, x, hp, hr, hn.1, hn.2, hx, fun _ => rfl⟩

/-- SETREF writes `REF` or is refused, whatever the state. -/
theorem setrefReply_cases (ref : Nat) :
    (∀ a, setrefReply ref a = raise .unknownReflector a) ∨
    ∃ f : ReflId, ref = f ∧ ∀ a, setrefReply ref a = respond .ok 0 (a.setREF f) := by
  unfold setrefReply
  cases h : reflOperand ref with
  | none => exact .inl fun _ => rfl
  | some f => exact .inr ⟨f, (reflOperand_eq_some _ _).1 h, fun _ => rfl⟩

/-- ADDPLUG is refused, or joins two distinct letters that were both unpaired. -/
theorem addplugReply_cases (l r : Nat) (a : Arch) :
    (∃ st, (st = Status.invalidPlugFormat ∨ st = Status.duplicatePlug) ∧ addplugReply l r a = raise st a) ∨
    ∃ x y : Letter, l = x ∧ r = y ∧ x ≠ y ∧ a.PLUG.entry x = x ∧ a.PLUG.entry y = y ∧
      addplugReply l r a = respond .ok 0 ((a.setPLUG x y).setPLUG y x) := by
  unfold addplugReply
  cases hl : letterOperand l with
  | none => exact .inl ⟨_, .inl rfl, rfl⟩
  | some x =>
    cases hr : letterOperand r with
    | none => exact .inl ⟨_, .inl rfl, rfl⟩
    | some y =>
      rw [letterOperand_eq_some] at hl hr
      by_cases hxy : x = y
      · exact .inl ⟨_, .inl rfl, by simp [hxy]⟩
      · by_cases hd : a.PLUG.entry x ≠ x ∨ a.PLUG.entry y ≠ y
        · exact .inl ⟨_, .inr rfl, by simp only [hxy, hd, if_true, if_false]⟩
        · refine .inr ⟨x, y, hl, hr, hxy, ?_, ?_, by simp only [hxy, hd, if_false]⟩ <;> tauto

/-- ADDPLUG's reply depends on `PLUG` only where its two letters stand: where two boards agree there it gives the same
response, and it leaves every other entry. -/
theorem addplugReply_local (l r : Nat) {a b : Arch}
    (h : ∀ i : Letter, (i.val = l ∨ i.val = r) → a.PLUG.entry i = b.PLUG.entry i) :
    (addplugReply l r a).rsp = (addplugReply l r b).rsp ∧
    (∀ i : Letter, (i.val = l ∨ i.val = r) →
      (addplugReply l r a).arch.PLUG.entry i = (addplugReply l r b).arch.PLUG.entry i) ∧
    ∀ i : Letter, i.val ≠ l → i.val ≠ r → (addplugReply l r a).arch.PLUG.entry i = a.PLUG.entry i := by
  unfold addplugReply
  cases hl : letterOperand l with
  | none => exact ⟨rfl, h, fun _ _ _ => rfl⟩
  | some x =>
    cases hr : letterOperand r with
    | none => exact ⟨rfl, h, fun _ _ _ => rfl⟩
    | some y =>
      rw [letterOperand_eq_some] at hl hr
      subst hl hr
      have hx := h x (.inl rfl)
      have hy := h y (.inr rfl)
      simp only [hx, hy]
      by_cases hxy : x = y
      · simp only [if_pos hxy]; exact ⟨rfl, h, fun _ _ _ => rfl⟩
      · by_cases hd : b.PLUG.entry x ≠ x ∨ b.PLUG.entry y ≠ y
        · simp only [if_neg hxy, if_pos hd]; exact ⟨rfl, h, fun _ _ _ => rfl⟩
        · simp only [if_neg hxy, if_neg hd]
          refine ⟨rfl, fun i hi => ?_, fun i hx' hy' => ?_⟩
          · simp [respond, h i hi]
          · simp [respond, Fin.ext_iff, hx', hy']

/-- KEY drops a non-letter, or steps the bank and encodes with the stepped offsets. -/
theorem keyReply_cases (c : Config) (n : Nat) (a : Arch) :
    (25 < n ∧ keyReply c n a = respond .dropped 0 a) ∨
    ∃ x : Letter, n = x ∧ keyReply c n a = respond .ok (zext 24 (pipeline c (stepBank c a) x)) (stepBank c a) := by
  unfold keyReply
  cases h : letterOperand n with
  | none => exact .inl ⟨(letterOperand_eq_none _).1 h, rfl⟩
  | some x => exact .inr ⟨x, (letterOperand_eq_some _ _).1 h, rfl⟩

end Sys2Proof.Machine
end

