-- ==== Sys2Proof/Laws/Decode.lean ====
section
/-! SUPPORT. Bit fields as arithmetic: a field is a quotient and a remainder, and a concatenation is a sum. Then
everything the decoder can answer. -/

namespace Sys2Proof

/-- A command word's bound, with `CMD_WIDTH` as the numeral that `omega` reads. -/
theorem word_toNat_lt (w : Word) : w.toNat < 2 ^ 32 := w.isLt

/-- A response word's bound, with `RSP_WIDTH` as the numeral that `omega` reads. -/
theorem response_toNat_lt (rsp : Response) : rsp.toNat < 2 ^ 32 := rsp.isLt

/-- `W[hi:lo]` as a quotient and a remainder. -/
theorem field_eq {n : Nat} (w : BitVec n) (hi lo : Nat) : field w hi lo = w.toNat / 2 ^ lo % 2 ^ (hi - lo + 1) := by
  simp [field, BitVec.extractLsb_toNat, Nat.shiftRight_eq_div_pow]

/-- `{a, b}` as a sum. -/
theorem toNat_append {m n : Nat} (x : BitVec m) (y : BitVec n) : (x ++ y).toNat = x.toNat * 2 ^ n + y.toNat := by
  rw [BitVec.toNat_append, ← Nat.shiftLeft_add_eq_or_of_lt y.isLt, Nat.shiftLeft_eq]

/-- The eight ways the decoder answers, one for each defined opcode and one for the others. -/
theorem decode_cases (w : Word) :
    (field w 31 24 = 0x01 ∧ decode w = checkReserved w 23 0 .init) ∨
    (field w 31 24 = 0x02 ∧
      decode w = .ok (.setrot (field w 23 20) (field w 19 16) (field w 15 8) (field w 7 0))) ∨
    (field w 31 24 = 0x03 ∧ decode w = checkReserved w 23 8 (.setref (field w 7 0))) ∨
    (field w 31 24 = 0x04 ∧ decode w = checkReserved w 23 16 (.addplug (field w 15 8) (field w 7 0))) ∨
    (field w 31 24 = 0x05 ∧ decode w = checkReserved w 23 8 (.key (field w 7 0))) ∨
    (field w 31 24 = 0x06 ∧ decode w = checkReserved w 23 0 .step) ∨
    (field w 31 24 = 0x07 ∧ decode w = checkReserved w 23 0 .rdwin) ∨
    ((field w 31 24 = 0x00 ∨ 0x08 ≤ field w 31 24) ∧ decode w = .error .undefinedOpcode) := by
  unfold decode
  split <;> simp_all
  omega

namespace Machine

/-- The status field of a response. -/
theorem response_status (st : Status) (d : BitVec 24) : field (response st d) 31 24 = st.code.toNat := by
  rw [field_eq, response, toNat_append]
  have := d.isLt
  have := st.code.isLt
  omega

/-- The data field of a response. -/
theorem response_data (st : Status) (d : BitVec 24) : field (response st d) 23 0 = d.toNat := by
  rw [field_eq, response, toNat_append]
  have := d.isLt
  omega

end Machine

end Sys2Proof
end

