-- ==== Sys2Proof/Laws/PerInstr.lean ====
section
/-! SUPPORT. Facts about each command as syntax, one lemma per constructor. -/

namespace Sys2Proof.Laws

/-- The word of a command carries the command's opcode in `CMD[31:24]` (30_encoding.md R60, R63). -/
def OpcodeField.Statement (i : Instr) : Prop := field (encode i) 31 24 = i.opcode

theorem OpcodeField.init : OpcodeField.Statement .init := by unfold OpcodeField.Statement; decide

theorem OpcodeField.setrot (pos rid ring start : Nat) : OpcodeField.Statement (.setrot pos rid ring start) := by
  simp only [OpcodeField.Statement, encode, field_eq, toNat_append, BitVec.toNat_ofNat, Instr.opcode]
  omega

theorem OpcodeField.setref (ref : Nat) : OpcodeField.Statement (.setref ref) := by
  simp only [OpcodeField.Statement, encode, field_eq, toNat_append, BitVec.toNat_ofNat, Instr.opcode]
  omega

theorem OpcodeField.addplug (a b : Nat) : OpcodeField.Statement (.addplug a b) := by
  simp only [OpcodeField.Statement, encode, field_eq, toNat_append, BitVec.toNat_ofNat, Instr.opcode]
  omega

theorem OpcodeField.key (x : Nat) : OpcodeField.Statement (.key x) := by
  simp only [OpcodeField.Statement, encode, field_eq, toNat_append, BitVec.toNat_ofNat, Instr.opcode]
  omega

theorem OpcodeField.step : OpcodeField.Statement .step := by unfold OpcodeField.Statement; decide

theorem OpcodeField.rdwin : OpcodeField.Statement .rdwin := by unfold OpcodeField.Statement; decide

end Sys2Proof.Laws
end

