-- ==== Sys2Proof/Laws/Step.lean ====
section
/-! SUPPORT. Everything one step can do. -/

namespace Sys2Proof.Machine

/-- Every step answers, and there are four ways it does: nothing is presented, a reset, a command, or a word that is no
command. -/
theorem step_cases (s : State) :
    (s.inbox = [] ∧ step s = .next s) ∨
    (∃ ab rest, s.inbox = .reset ab :: rest ∧ step s = .next ⟨Arch.default hw, rest, s.outbox⟩) ∨
    (∃ w rest i, s.inbox = .command w :: rest ∧ decode w = .ok i ∧
      step s = .next ⟨(instrReply i s.arch).arch, rest, s.outbox ++ [(instrReply i s.arch).rsp]⟩) ∨
    (∃ w rest e, s.inbox = .command w :: rest ∧ decode w = .error e ∧
      step s = .next ⟨s.arch, rest, s.outbox ++ [response .illegalCommand 0]⟩) := by
  obtain ⟨a, inbox, out⟩ := s
  match inbox with
  | [] => exact .inl ⟨rfl, rfl⟩
  | .reset ab :: rest => exact .inr (.inl ⟨ab, rest, rfl, rfl⟩)
  | .command w :: rest =>
    cases h : decode w with
    | ok i =>
      refine .inr (.inr (.inl ⟨w, rest, i, rfl, h, ?_⟩))
      simp only [step, takeEvent, h, exec_eq_complete, complete_eq]
    | error e =>
      refine .inr (.inr (.inr ⟨w, rest, e, rfl, h, ?_⟩))
      simp only [step, takeEvent, h]
      rfl

@[simp] theorem run_zero (s : State) : run 0 s = .next s := rfl

/-- A run takes its first step and goes on from there. -/
theorem run_succ {s t : State} (h : step s = .next t) (n : Nat) : run (n + 1) s = run n t := by
  have e : Sys2Proof.core.step s = .next t := h
  simp only [run, Host.Core.run, e]
  rfl

end Sys2Proof.Machine
end

