-- ==== Sys2Proof/Machine/Assembler.lean ====
section
/-! DEFINITION. The textual form of a command (30_encoding.md R70): one line of text to the command it writes. Nothing of
the machine calls it. DESIGN CHOICE where R70 is silent, safe: notes/assumptions/18. -/

namespace Sys2Proof.Machine

/-- The text with the spaces at its two ends taken off. -/
def trimSpaces (s : List Char) : List Char := ((s.dropWhile (· == ' ')).reverse.dropWhile (· == ' ')).reverse

/-- A decimal number, no sign, at least one digit. -/
def decimal (s : List Char) : Option Nat :=
  if s ≠ [] ∧ s.all Char.isDigit then some (s.foldl (fun n ch => 10 * n + (ch.toNat - '0'.toNat)) 0) else none

/-- An operand: a raw field value after `#`, or what `named` reads (30_encoding.md R70). -/
def rawOr (named : List Char → Option Nat) (s : List Char) : Option Nat :=
  match s with
  | '#' :: digits => decimal digits
  | _ => named s

/-- `L`, `M`, `R` or `left`, `middle`, `right` (30_encoding.md R70). -/
def positionText (s : List Char) : Option Nat :=
  if s = ['L'] then some 0 else if s = ['M'] then some 1 else if s = ['R'] then some 2
  else if s ∈ positionNames then some (positionNames.idxOf s) else none

/-- A Roman numeral (30_encoding.md R70). -/
def rotorText (s : List Char) : Option Nat := if s ∈ rotorNames then some (rotorNames.idxOf s) else none

/-- A ring as decimal 1 to 26 (30_encoding.md R70). -/
def ringText (s : List Char) : Option Nat := (decimal s).filter fun n => 1 ≤ n ∧ n ≤ 26

/-- A letter as a capital (30_encoding.md R70). -/
def letterText (s : List Char) : Option Nat :=
  match s with
  | [ch] => (capitalIndex ch).map fun x => (x : Nat)
  | _ => none

/-- A reflector, `B` or `C` (30_encoding.md R70). -/
def reflText (s : List Char) : Option Nat := if s = ['B'] then some 0 else if s = ['C'] then some 1 else none

/-- A command from its mnemonic and its operands in field order (30_encoding.md R70). -/
def commandText (mnemonic : List Char) (operands : List (List Char)) : Option Instr :=
  match operands with
  | [] =>
    if mnemonic = ['I', 'N', 'I', 'T'] then some .init
    else if mnemonic = ['S', 'T', 'E', 'P'] then some .step
    else if mnemonic = ['R', 'D', 'W', 'I', 'N'] then some .rdwin
    else none
  | [o1] =>
    if mnemonic = ['S', 'E', 'T', 'R', 'E', 'F'] then (rawOr reflText o1).map .setref
    else if mnemonic = ['K', 'E', 'Y'] then (rawOr letterText o1).map .key
    else none
  | [o1, o2] =>
    if mnemonic = ['A', 'D', 'D', 'P', 'L', 'U', 'G'] then
      (rawOr letterText o1).bind fun a => (rawOr letterText o2).map fun b => .addplug a b
    else none
  | [o1, o2, o3, o4] =>
    if mnemonic = ['S', 'E', 'T', 'R', 'O', 'T'] then
      (rawOr positionText o1).bind fun pos => (rawOr rotorText o2).bind fun rid =>
        (rawOr ringText o3).bind fun ring => (rawOr letterText o4).map fun start => .setrot pos rid ring start
    else none
  | _ => none

/-- One line: a comment starts at `;`; a line that holds nothing else writes no command, and a line that is not of the
form of R70, or whose operand does not fit its field, is `none` (30_encoding.md R70). -/
def assembleLine (line : List Char) : Option (List Instr) :=
  let text := trimSpaces (line.takeWhile (· != ';'))
  if text = [] then some []
  else
    let mnemonic := text.takeWhile (· != ' ')
    let rest := trimSpaces (text.dropWhile (· != ' '))
    let operands := if rest = [] then [] else (rest.splitOn ',').map trimSpaces
    ((commandText mnemonic operands).filter Instr.fits).map fun i => [i]

end Sys2Proof.Machine
end

