-- ==== Sys2Proof/Tests/Slice0.lean ====
section
/-! SUPPORT. The model's own tests. Every expected value is from spec/: the file and section stand in each comment.
Then the witnesses: for each statement with hypotheses, a concrete state and operands that meet them together. -/

namespace Sys2Proof.Tests

open Sys2Proof.Machine

/-- The state a result goes on to, for comparing. -/
def nextOf (r : Result) : Option State :=
  match r with
  | .next t => some t
  | .fault _ => none
  | .refused _ => none

/-- A core with the given registers and one word presented. -/
def presented (a : Arch) (w : Word) : State := ⟨a, [.command w], []⟩

/-- What one step on a presented word leaves in the registers, and its response. -/
def answer (a : Arch) (w : Word) : Option (Arch × List Response) :=
  (nextOf (step (presented a w))).map fun t => (t.arch, t.outbox)

/-- The response alone. -/
def rspOf (a : Arch) (w : Word) : Option (List Response) := (answer a w).map (·.2)

/-- The windows and the response alone. -/
def winOf (a : Arch) (w : Word) : Option (Vector Letter 3 × List Response) := (answer a w).map fun p => (p.1.OFF, p.2)

/-- A table in the notation of 00_scope.md R11. -/
def tableText (T : Table) : List Char := T.toList.map capital

/-- The registers after reset. -/
def reset : Arch := State.reset.arch

/-- Registers with the given rotors, rings and windows, reflector B and no plugs. -/
def bank (id : Vector RotorId 3) (ring : Vector RingSetting 3) (off : Vector Letter 3) : Arch :=
  ⟨id, ring, off, 0, noPlugs⟩

/-- The configuration of 95_test_vectors.md S3: reflector C, pairs UV, WX, YZ. -/
def s3 : Arch :=
  { bank #v[4, 2, 1] #v[6, 25, 14] #v[25, 2, 8] with
    REF := 1
    PLUG := #v[0, 1, 2, 3, 4, 5, 6, 7, 8, 9, 10, 11, 12, 13, 14, 15, 16, 17, 18, 19, 21, 20, 23, 22, 25, 24] }

/-- Reset with the pair AB installed. -/
def pairAB : Arch := (reset.setPLUG 0 1).setPLUG 1 0

/-- Reset with 13 pairs AB, CD, ..., YZ (95_test_vectors.md section 4.4, capacity). -/
def thirteen : Arch :=
  { reset with
    PLUG := #v[1, 0, 3, 2, 5, 4, 7, 6, 9, 8, 11, 10, 13, 12, 15, 14, 17, 16, 19, 18, 21, 20, 23, 22, 25, 24] }

/-! ## Well-formed terms -/

theorem test_wellFormed_setrot : (Instr.setrot 15 15 255 255).WellFormed := by decide
theorem test_illFormed_pos : ¬ (Instr.setrot 16 0 1 0).WellFormed := by decide
theorem test_illFormed_rid : ¬ (Instr.setrot 0 16 1 0).WellFormed := by decide
theorem test_illFormed_ring : ¬ (Instr.setrot 0 0 256 0).WellFormed := by decide
theorem test_illFormed_start : ¬ (Instr.setrot 0 0 1 256).WellFormed := by decide
theorem test_illFormed_ref : ¬ (Instr.setref 256).WellFormed := by decide
theorem test_illFormed_plug_left : ¬ (Instr.addplug 256 0).WellFormed := by decide
theorem test_illFormed_plug_right : ¬ (Instr.addplug 0 256).WellFormed := by decide
theorem test_illFormed_key : ¬ (Instr.key 256).WellFormed := by decide

/-! ## Decoding: words written out from 30_encoding.md R61 -/

theorem test_decode_init : decode 0b00000001000000000000000000000000#32 = .ok .init := by decide
theorem test_decode_setrot : decode 0b00000010000000110000010000010000#32 = .ok (.setrot 0 3 4 16) := by decide
theorem test_decode_setref : decode 0b00000011000000000000000000000001#32 = .ok (.setref 1) := by decide
theorem test_decode_addplug : decode 0b00000100000000000000101000001011#32 = .ok (.addplug 10 11) := by decide
theorem test_decode_key : decode 0b00000101000000000000000000010010#32 = .ok (.key 18) := by decide
theorem test_decode_step : decode 0b00000110000000000000000000000000#32 = .ok .step := by decide
theorem test_decode_rdwin : decode 0b00000111000000000000000000000000#32 = .ok .rdwin := by decide
/-- 43_runtime_commands.md R122. -/
theorem test_decode_illegal :
    decode 0x00000000#32 = .error .undefinedOpcode ∧ decode 0x08000000#32 = .error .undefinedOpcode ∧
    decode 0xFFFFFFFF#32 = .error .undefinedOpcode ∧ decode 0x01000001#32 = .error .reservedBits ∧
    decode 0x07800000#32 = .error .reservedBits ∧ decode 0x05000100#32 = .error .reservedBits := by decide
theorem test_decodeTableWord : decodeTableWord 32 0x02271307 = some (.setrot 2 7 19 7) := by decide

/-! ## Tables and datapath -/

/-- 20_memory.md R53. -/
theorem test_inverse_tables :
    (List.finRange 8).map (fun r => tableText (inverse (hw.wiring.entry r))) =
      ["UWYGADFPVZBECKMTHXSLRINQOJ".toList, "AJPCZWRLFBDKOTYUQGENHXMIVS".toList,
        "TAGBPCSDQEUFVNZHYIXJWLRKOM".toList, "HZWVARTNLGUPXQCEJMBSKDYOIF".toList,
        "QCYLXWENFTZOSMVJUDKGIARPHB".toList, "SKXQLHCNWARVGMEBJPTYFDZUIO".toList,
        "QMGYVPEDRCWTIANUXFKZOSLHJB".toList, "QJINSAYDVKBFRUHMCPLEWZTGXO".toList] := by decide
/-- 20_memory.md R42. -/
theorem test_reflector_tables :
    tableText (hw.reflector.entry 0) = "YRUHQSLDPXNGOKMIEBFZCWVJAT".toList ∧
    tableText (hw.reflector.entry 1) = "FVPJIAOYEDRZXWGCTKUQSBNMHL".toList := by decide
/-- 40_datapath.md R84. -/
theorem test_eff : tableText (eff hw 0 2) = "KFLNGMHERWAOUPXZIYVTQBJCSD".toList ∧
    tableText (eff hw 0 26) = "JLEKFCPUYMSNVXGWTROZHAQBID".toList := by decide
/-- 40_datapath.md R86, R87 (rotor V, ring 15, offset C). -/
theorem test_cur :
    tableText (cur hw (bank #v[4, 0, 0] #v[15, 1, 1] #v[2, 0, 0]) 0) = "XJMIYVCARQOWHLNDSUFKGBEPZT".toList ∧
    tableText (inverse (cur hw (bank #v[4, 0, 0] #v[15, 1, 1] #v[2, 0, 0]) 0)) =
      "HVGPWSUMDBTNCOKXJIQZRFLAEY".toList := by decide
/-- 95_test_vectors.md section 4.5, the reset state after one step. -/
theorem test_pipeline_map :
    (List.finRange 26).map (fun x => capital (pipeline hw (stepBank hw reset) x)) =
      "FWPOVAYMLRNIHKDCUJXZQEBSGT".toList := by decide

/-! ## One step of each command -/

/-- 42_config_commands.md R110, from a state where every register differs. -/
theorem test_init : answer s3 0x01000000#32 = some (reset, [0x00000000#32]) := by decide
/-- 42_config_commands.md R111. -/
theorem test_setrot :
    answer reset 0x02030410#32 = some (bank #v[3, 1, 0] #v[4, 1, 1] #v[16, 0, 0], [0x00000000#32]) := by decide
/-- 42_config_commands.md R111: four bad operands, then one less each time. -/
theorem test_setrot_error_order :
    answer reset 0x0238001A#32 = some (reset, [0x01000000#32]) ∧ rspOf reset 0x02300000#32 = some [0x02000000#32] ∧
    rspOf reset 0x0200001A#32 = some [0x03000000#32] ∧ rspOf reset 0x0200011A#32 = some [0x04000000#32] := by decide
/-- 42_config_commands.md R112. -/
theorem test_setref : answer reset 0x03000001#32 = some ({ reset with REF := 1 }, [0x00000000#32]) := by decide
/-- 42_config_commands.md R112. -/
theorem test_setref_errors :
    rspOf reset 0x03000002#32 = some [0x05000000#32] ∧ rspOf reset 0x03000101#32 = some [0x0A000000#32] := by decide
/-- 42_config_commands.md R113. -/
theorem test_addplug : answer pairAB 0x04000203#32 =
    some ({ reset with PLUG := #v[1, 0, 3, 2, 4, 5, 6, 7, 8, 9, 10, 11, 12, 13, 14, 15, 16, 17, 18, 19, 20, 21, 22, 23,
      24, 25] }, [0x00000000#32]) := by decide
/-- 42_config_commands.md R113 and 60_exceptions.md R152 (format before duplicate). -/
theorem test_addplug_errors :
    answer pairAB 0x04000002#32 = some (pairAB, [0x07000000#32]) ∧ rspOf pairAB 0x04000201#32 = some [0x07000000#32] ∧
    rspOf pairAB 0x04000404#32 = some [0x06000000#32] ∧ rspOf pairAB 0x04001A00#32 = some [0x06000000#32] := by decide
/-- 43_runtime_commands.md R120 (`KEY A` after INIT) and R124. -/
theorem test_key_reset : winOf reset 0x05000000#32 = some (#v[0, 0, 1], [0x00000005#32]) ∧
    winOf reset 0x0500001A#32 = some (#v[0, 0, 0], [0x09000000#32]) := by decide
/-- 95_test_vectors.md S3, keypress 1: P to T, windows Z C J. -/
theorem test_key_s3 : winOf s3 0x0500000F#32 = some (#v[25, 2, 9], [0x00000013#32]) := by decide
/-- 95_test_vectors.md section 4.3: rotors I, II, III at A D V and A E W. -/
theorem test_step_double_step :
    winOf (bank #v[0, 1, 2] #v[1, 1, 1] #v[0, 3, 21]) 0x06000000#32 = some (#v[0, 4, 22], [0x00000000#32]) ∧
    winOf (bank #v[0, 1, 2] #v[1, 1, 1] #v[0, 4, 22]) 0x06000000#32 = some (#v[1, 5, 23], [0x00000000#32]) := by decide
/-- 95_test_vectors.md section 4.3: III, II, I at A E Q (both on a notch) and V A A (the left rotor on its own). -/
theorem test_step_both_and_left :
    winOf (bank #v[2, 1, 0] #v[1, 1, 1] #v[0, 4, 16]) 0x06000000#32 = some (#v[1, 5, 17], [0x00000000#32]) ∧
    winOf (bank #v[2, 1, 0] #v[1, 1, 1] #v[21, 0, 0]) 0x06000000#32 = some (#v[21, 0, 1], [0x00000000#32]) := by decide
/-- 43_runtime_commands.md R121: windows Q D H. -/
theorem test_rdwin : answer (bank #v[3, 1, 7] #v[4, 9, 19] #v[16, 3, 7]) 0x07000000#32 =
    some (bank #v[3, 1, 7] #v[4, 9, 19] #v[16, 3, 7], [0x00100307#32]) := by decide
/-- 43_runtime_commands.md R122. -/
theorem test_illegal : answer s3 0x05000100#32 = some (s3, [0x0A000000#32]) ∧
    answer s3 0xFFFFFFFF#32 = some (s3, [0x0A000000#32]) := by decide
/-- 70_reset_and_hazards.md R161: no response, and the command it abandons has no effect. -/
theorem test_reset_event :
    nextOf (step ⟨s3, [.reset (some 0x04000203#32)], [0x00000013#32]⟩) = some ⟨reset, [], [0x00000013#32]⟩ := by decide
/-- 10_state.md R26. -/
theorem test_waiting : nextOf (step State.reset) = some State.reset := by decide
/-- 95_test_vectors.md P1, row 1, placed as the host places a word. -/
theorem test_withFetchWord :
    (nextOf (step (State.reset.withFetchWord 32 0x05000000))).map (·.outbox) = some [0x00000005#32] := by decide

/-! ## The host wrapper and the assembler -/

/-- 95_test_vectors.md section 4.7. -/
theorem test_normalize :
    normalizeText "Hello, World!".toList = [7, 4, 11, 11, 14, 22, 14, 17, 11, 3] ∧
    normalizeText "a1b2c3".toList = [0, 1, 2] := by decide
/-- 95_test_vectors.md section 4.7. -/
theorem test_group :
    groupLetters [0, 1, 2, 3, 4] = "ABCDE".toList ∧ groupLetters [0, 1, 2, 3, 4, 5] = "ABCDE F".toList := by decide
/-- 95_test_vectors.md P1, two keypresses. -/
theorem test_encode : (encodeText reset "a, a".toList).2 = "FT".toList := by decide
/-- 95_test_vectors.md section 4.7. -/
theorem test_addPlugText :
    addPlugText reset "ab".toList = (pairAB, 0x00#8) ∧ addPlugText reset "A1".toList = (reset, 0x06#8) ∧
    addPlugText reset "A".toList = (reset, 0x06#8) ∧ addPlugText reset "ABC".toList = (reset, 0x06#8) := by decide
/-- 44_host_wrapper.md R134 and 92_eei_decisions.md D22. -/
theorem test_addPlugTexts : addPlugTexts reset ["AB".toList, "AC".toList, "DE".toList] = (pairAB, 0x07#8) := by decide
/-- 44_host_wrapper.md R135. -/
theorem test_setRotorText :
    setRotorText reset "iv".toList "LEFT".toList 4 "q".toList = (bank #v[3, 1, 0] #v[4, 1, 1] #v[16, 0, 0], 0x00#8) ∧
    setRotorText reset "IX".toList "left".toList 300 "q".toList = (reset, 0x01#8) ∧
    setRotorText reset "I".toList "top".toList 1 "A".toList = (reset, 0x02#8) ∧
    setRotorText reset "I".toList "left".toList 300 "A".toList = (reset, 0x03#8) := by decide
/-- 44_host_wrapper.md R135: the counter is 0 at construction, counts an OK append and not a failed one, and at 3 no
command is sent. -/
theorem test_addRotorText :
    (newAppendHost reset).n = 0 ∧
    addRotorText (newAppendHost reset) "IX".toList 1 "A".toList = (newAppendHost reset, 0x01#8) ∧
    (addRotorText (newAppendHost reset) "v".toList 26 "z".toList).1 = ⟨bank #v[4, 1, 0] #v[26, 1, 1] #v[25, 0, 0], 1⟩ ∧
    addRotorText ⟨reset, 3⟩ "I".toList 1 "A".toList = (⟨reset, 3⟩, 0x08#8) := by decide
/-- 44_host_wrapper.md R136. -/
theorem test_setReflectorText :
    setReflectorText reset "C".toList = ({ reset with REF := 1 }, 0x00#8) ∧
    setReflectorText reset "b".toList = (reset, 0x05#8) := by decide
/-- 30_encoding.md R70. -/
theorem test_assemble :
    assembleLine "SETROT L, IV, 4, Q".toList = some [.setrot 0 3 4 16] ∧
    assembleLine "SETROT #3, I, 1, A".toList = some [.setrot 3 0 1 0] ∧
    assembleLine "ADDPLUG K, L ; a pair".toList = some [.addplug 10 11] ∧
    assembleLine "; nothing".toList = some [] ∧ assembleLine "KEY #256".toList = none := by decide

/-! ## Witnesses: the hypotheses of each statement, met together -/

theorem witness_DecodeOfEncodeIsTheCommand :
    (Instr.init).WellFormed ∧ (Instr.setrot 15 15 255 255).WellFormed ∧ (Instr.setref 255).WellFormed ∧
    (Instr.addplug 255 255).WellFormed ∧ (Instr.key 255).WellFormed ∧ (Instr.step).WellFormed ∧
    (Instr.rdwin).WellFormed := by decide
theorem witness_EncodeOfDecodeIsTheWord : decode 0x02FFFFFF#32 = .ok (.setrot 15 15 255 255) := by decide
theorem witness_DecoderFollowsTheOpcodeTable :
    decode 0x02FFFFFF#32 = .ok (.setrot 15 15 255 255) ∧ ⟨0x02, 0xFF000000#32, 0x02000000#32⟩ ∈ opcodeRows ∧
    OpcodeRow.selects ⟨0x02, 0xFF000000#32, 0x02000000#32⟩ 0x02FFFFFF#32 = true := by decide
theorem witness_StepRunsTheDecodedCommand :
    (presented reset 0x06000000#32).inbox = .command 0x06000000#32 :: [] ∧ decode 0x06000000#32 = .ok .step := by decide
theorem witness_PlacedWordRunsNext : decodeTableWord 32 0x050000FF = some (.key 255) := by decide
/-- Each disjunct, at a boundary value: opcodes 0x00 and 0x08, and the lowest reserved bit of each format. -/
theorem witness_IllegalWordsAnswerIllegalCommand :
    (presented reset 0x00FFFFFF#32).inbox = .command 0x00FFFFFF#32 :: [] ∧ field 0x00FFFFFF#32 31 24 = 0x00 ∧
    0x08 ≤ field 0x08000000#32 31 24 ∧
    (field 0x01000001#32 31 24 = 0x01 ∧ field 0x01000001#32 23 0 ≠ 0) ∧
    (field 0x03000100#32 31 24 = 0x03 ∧ field 0x03000100#32 23 8 ≠ 0) ∧
    (field 0x04010000#32 31 24 = 0x04 ∧ field 0x04010000#32 23 16 ≠ 0) ∧
    (field 0x05000100#32 31 24 = 0x05 ∧ field 0x05000100#32 23 8 ≠ 0) ∧
    (field 0x06000001#32 31 24 = 0x06 ∧ field 0x06000001#32 23 0 ≠ 0) ∧
    (field 0x07000001#32 31 24 = 0x07 ∧ field 0x07000001#32 23 0 ≠ 0) := by decide
theorem witness_ResetEventRestoresDefaultWithoutResponse :
    (⟨s3, [.reset none], []⟩ : State).inbox = .reset none :: [] := by decide
theorem witness_WaitingChangesNothing : State.reset.inbox = [] := by decide
theorem witness_InitRestoresTheDefaultConfiguration : field 0x01000001#32 31 24 = 0x01 := by decide
/-- The five clauses' operands at their boundaries, and what the model answers there. -/
theorem witness_SetrotInstallsOrReports :
    field 0x02FFFFFF#32 31 24 = 0x02 ∧
    nextOf (exec (.setrot 0 8 1 0) State.reset) = some ⟨reset, [], [0x01000000#32]⟩ ∧
    nextOf (exec (.setrot 3 7 1 0) State.reset) = some ⟨reset, [], [0x02000000#32]⟩ ∧
    nextOf (exec (.setrot 2 7 0 0) State.reset) = some ⟨reset, [], [0x03000000#32]⟩ ∧
    nextOf (exec (.setrot 2 7 27 0) State.reset) = some ⟨reset, [], [0x03000000#32]⟩ ∧
    nextOf (exec (.setrot 2 7 26 26) State.reset) = some ⟨reset, [], [0x04000000#32]⟩ ∧
    nextOf (exec (.setrot 2 7 26 25) State.reset) =
      some ⟨bank #v[2, 1, 7] #v[1, 1, 26] #v[0, 0, 25], [], [0x00000000#32]⟩ ∧
    nextOf (exec (.setrot 0 0 1 0) State.reset) =
      some ⟨bank #v[0, 1, 0] #v[1, 1, 1] #v[0, 0, 0], [], [0x00000000#32]⟩ := by decide
theorem witness_SetrefSelectsOrReports :
    field 0x030000FF#32 31 24 = 0x03 ∧ nextOf (exec (.setref 2) State.reset) = some ⟨reset, [], [0x05000000#32]⟩ ∧
    nextOf (exec (.setref 1) State.reset) = some ⟨{ reset with REF := 1 }, [], [0x00000000#32]⟩ := by decide
theorem witness_AddplugInstallsOrReports :
    field 0x0400FFFF#32 31 24 = 0x04 ∧
    nextOf (exec (.addplug 26 0) State.reset) = some ⟨reset, [], [0x06000000#32]⟩ ∧
    nextOf (exec (.addplug 0 26) State.reset) = some ⟨reset, [], [0x06000000#32]⟩ ∧
    nextOf (exec (.addplug 25 25) State.reset) = some ⟨reset, [], [0x06000000#32]⟩ ∧
    ((0 : Letter) ≠ 25 ∧ (pairAB.PLUG.entry 0 ≠ 0 ∨ pairAB.PLUG.entry 25 ≠ 25)) ∧
    ((2 : Letter) ≠ 25 ∧ pairAB.PLUG.entry 2 = 2 ∧ pairAB.PLUG.entry 25 = 25) := by decide
theorem witness_KeyStepsThenEncodes :
    field 0x05000019#32 31 24 = 0x05 ∧ nextOf (exec (.key 26) State.reset) = some ⟨reset, [], [0x09000000#32]⟩ := by decide
theorem witness_NonLetterKeysAreDropped :
    (presented reset 0x0500001A#32).inbox = .command 0x0500001A#32 :: [] ∧ field 0x0500001A#32 31 8 = 0x050000 ∧
    field 0x0500001A#32 7 0 > 25 := by decide
theorem witness_StepAdvancesTheBank : field 0x06000001#32 31 24 = 0x06 := by decide
theorem witness_RdwinReturnsTheWindows : field 0x07000001#32 31 24 = 0x07 := by decide
theorem witness_InitStepRdwinKeyNeverFail : ∃ x : Letter, Instr.key 25 = .key x := ⟨25, rfl⟩
/-- A word that fails, and a word that returns data. -/
theorem witness_EveryWordIsAnsweredOnceAndErrorsWriteNothing :
    rspOf s3 0x0238001A#32 = some [0x01000000#32] ∧ field 0x01000000#32 31 24 ≠ 0 ∧
    rspOf reset 0x05000000#32 = some [0x00000005#32] ∧ field 0x00000005#32 23 0 ≠ 0 := by decide
/-- One command for each status the core produces. -/
theorem witness_StatusesComeFromTheirCommands :
    nextOf (exec .rdwin State.reset) = some ⟨reset, [], State.reset.outbox ++ [0x00000000#32]⟩ ∧
    nextOf (exec (.setrot 3 8 0 26) State.reset) = some ⟨reset, [], State.reset.outbox ++ [0x01000000#32]⟩ ∧
    nextOf (exec (.setrot 3 0 0 26) State.reset) = some ⟨reset, [], State.reset.outbox ++ [0x02000000#32]⟩ ∧
    nextOf (exec (.setrot 0 0 0 26) State.reset) = some ⟨reset, [], State.reset.outbox ++ [0x03000000#32]⟩ ∧
    nextOf (exec (.setrot 0 0 1 26) State.reset) = some ⟨reset, [], State.reset.outbox ++ [0x04000000#32]⟩ ∧
    nextOf (exec (.setref 2) State.reset) = some ⟨reset, [], State.reset.outbox ++ [0x05000000#32]⟩ ∧
    nextOf (exec (.addplug 4 4) State.reset) = some ⟨reset, [], State.reset.outbox ++ [0x06000000#32]⟩ ∧
    nextOf (exec (.addplug 0 2) ⟨pairAB, [], []⟩) = some ⟨pairAB, [], [] ++ [0x07000000#32]⟩ ∧
    nextOf (exec (.key 26) State.reset) = some ⟨reset, [], State.reset.outbox ++ [0x09000000#32]⟩ := by decide
theorem witness_FailedCommandFailsAgain :
    nextOf (exec (.addplug 0 2) ⟨pairAB, [], []⟩) = some ⟨pairAB, [], [] ++ [0x07000000#32]⟩ ∧
    field 0x07000000#32 31 24 ≠ 0 := by decide
/-- Every register is written by some command. -/
theorem witness_RegistersHaveOnlyTheirWriters :
    nextOf (exec .init ⟨{ s3 with OFF := #v[1, 1, 1] }, [], []⟩) = some ⟨reset, [], [0x00000000#32]⟩ ∧
    reset.ID ≠ s3.ID ∧ reset.RING ≠ s3.RING ∧ reset.OFF ≠ #v[1, 1, 1] ∧ reset.REF ≠ s3.REF ∧
    reset.PLUG ≠ s3.PLUG := by decide
/-- Two states that differ in every register but `OFF`, and two that differ in `OFF` too. -/
theorem witness_ResponsesRevealOnlyTheWindows :
    nextOf (exec .rdwin ⟨{ s3 with OFF := reset.OFF }, [], []⟩) =
      some ⟨{ s3 with OFF := reset.OFF }, [], [] ++ [0x00000000#32]⟩ ∧
    nextOf (exec .rdwin State.reset) = some ⟨reset, [], [] ++ [0x00000000#32]⟩ ∧
    ({ s3 with OFF := reset.OFF } : Arch).OFF = reset.OFF ∧
    (nextOf (exec .step ⟨s3, [], []⟩)).map (·.outbox) = some ([] ++ [0x00000000#32]) ∧ Instr.step ≠ .rdwin := by decide
theorem witness_ConfigurationCommandsCommute :
    (∃ p r n x, Instr.setrot 0 3 4 16 = .setrot p r n x) ∧ (∃ f, Instr.setref 1 = .setref f) ∧
    (∃ l r, Instr.addplug 0 1 = .addplug l r) ∧
    ∃ p r n x p' r' n' x', Instr.setrot 0 3 4 16 = .setrot p r n x ∧
      Instr.setrot 2 7 19 7 = .setrot p' r' n' x' ∧ p ≠ p' :=
  ⟨⟨0, 3, 4, 16, rfl⟩, ⟨1, rfl⟩, ⟨0, 1, rfl⟩, 0, 3, 4, 16, 2, 7, 19, 7, rfl, rfl, by decide⟩
/-- Two ADDPLUGs with no letter in common, both of which install a pair. -/
theorem witness_ConfigurationCommandsCommute_addplugs :
    (∃ l r l' r', Instr.addplug 0 25 = .addplug l r ∧ Instr.addplug 24 1 = .addplug l' r' ∧ l ≠ l' ∧ l ≠ r' ∧
      r ≠ l' ∧ r ≠ r') ∧
    (instrReply (.addplug 0 25) reset).rsp = 0x00000000#32 ∧
    (instrReply (.addplug 24 1) (instrReply (.addplug 0 25) reset).arch).rsp = 0x00000000#32 :=
  ⟨⟨0, 25, 24, 1, rfl, rfl, by decide⟩, by decide⟩
/-- A state that no default shares, satisfying the invariants, and a step from it. -/
theorem witness_EveryStepKeepsTheInvariants :
    (presented s3 0x04000203#32).Inv ∧ (nextOf (step (presented s3 0x04000203#32))).isSome := by decide
/-- A full plugboard; and an ADDPLUG that answers OK. -/
theorem witness_PlugboardHoldsThirteenPairs :
    (0 : Letter) ≠ 2 ∧ pairCount thirteen = MAXPLUGS ∧ thirteen.Inv ∧
    (nextOf (exec (.addplug 2 3) ⟨pairAB, [], []⟩)).map (·.outbox) = some ([] ++ [0x00000000#32]) := by decide
theorem witness_InverseIsTheUniqueUndoingTable : Perm (hw.wiring.entry 0) := by decide
theorem witness_ShiftLaws :
    Perm (hw.wiring.entry 0) ∧ SelfInverse (hw.reflector.entry 0) ∧ NoFixedPoint (hw.reflector.entry 0) := by decide
theorem witness_ReflectorIsAFixedPointFreeInvolution : reset.REF = 0 := by decide
theorem witness_PlugIsItsOwnInverse : s3.Inv := by decide
theorem witness_PipelineRunsItsNineLookupsInOrder :
    (stepBank hw s3).ID = #v[4, 2, 1] ∧ (stepBank hw s3).RING = #v[6, 25, 14] ∧ (stepBank hw s3).OFF = #v[25, 2, 9] ∧
    (stepBank hw s3).REF = 1 ∧ ∀ i : Letter, i.val < 20 → (stepBank hw s3).PLUG.entry i = i := by decide
theorem witness_PipelineIsAFixedPointFreeInvolution : TablesOk hw ∧ s3.Inv := by decide
theorem witness_KeyNeverReturnsTheLetterKeyed : (presented s3 0x05000000#32).Inv := by decide
theorem witness_RotateAdvancesOneOffset : s3.OFF.entry 0 = 25 ∧ (1 : Slot) ≠ 0 := by decide
/-- 95_test_vectors.md X2: rotors I, II, III at A D V. -/
theorem witness_DoubleStepAdvancesTheMiddleTwice :
    (bank #v[0, 1, 2] #v[1, 1, 1] #v[0, 3, 21]).OFF.entry 2 ∈ hw.notch.entry 2 ∧
    (bank #v[0, 1, 2] #v[1, 1, 1] #v[0, 3, 21]).OFF.entry 1 ∉ hw.notch.entry 1 ∧
    mod26 (((bank #v[0, 1, 2] #v[1, 1, 1] #v[0, 3, 21]).OFF.entry 1 : Int) + 1) ∈ hw.notch.entry 1 := by decide
/-- Two states that differ in the left rotor, the rings, the reflector and the plugboard. -/
theorem witness_SteppingReadsOnlyOffsetsAndTwoRotors :
    s3.OFF = (bank #v[0, 2, 1] #v[1, 1, 1] #v[25, 2, 8]).OFF ∧
    s3.ID.entry 1 = (bank #v[0, 2, 1] #v[1, 1, 1] #v[25, 2, 8]).ID.entry 1 ∧
    s3.ID.entry 2 = (bank #v[0, 2, 1] #v[1, 1, 1] #v[25, 2, 8]).ID.entry 2 ∧
    (nextOf (exec .step ⟨s3, [], []⟩)).isSome ∧
    (nextOf (exec .step ⟨bank #v[0, 2, 1] #v[1, 1, 1] #v[25, 2, 8], [], []⟩)).isSome := by decide
theorem witness_EncodingTwiceFromTheSameStateGivesTheMessage : s3.Inv := by decide
theorem witness_GroupedOutputHasTheLawfulLength : ([0] : List Letter) ≠ [] := by decide
theorem witness_AppendedRotorsFillLeftMiddleRight : 1 ≤ (1 : RingSetting).val ∧ 1 ≤ (26 : RingSetting).val := by decide
theorem witness_PlugTextsSendTheirPair :
    "A".toList.length ≠ 2 ∧ 'A' = capital 0 ∧ 'z' = lowerAscii (capital 25) ∧
    (∀ x : Letter, '@' ≠ capital x ∧ '@' ≠ lowerAscii (capital x)) ∧
    ∀ x : Letter, '[' ≠ capital x ∧ '[' ≠ lowerAscii (capital x) := by decide

end Sys2Proof.Tests
end

/-! What the core does with a presented word: the step around it, and the two shapes a reply has. -/

namespace Sys2Proof

/-- A set reserved bit rejects the word, whatever command its opcode names (30_encoding.md R68). -/
theorem checkReserved_of_ne_zero {w : Word} {hi lo : Nat} (i : Instr) (h : field w hi lo ≠ 0) :
    checkReserved w hi lo i = .error .reservedBits :=
  if_neg h

/-- The words of 30_encoding.md R67 and R68 are no command: the opcode selects the decoder's arm, and in each arm with a
reserved field that field is the one found set. -/
theorem decode_error_of_illegal {w : Word}
    (h : field w 31 24 = 0x00 ∨ 0x08 ≤ field w 31 24 ∨
      (field w 31 24 = 0x01 ∧ field w 23 0 ≠ 0) ∨ (field w 31 24 = 0x03 ∧ field w 23 8 ≠ 0) ∨
      (field w 31 24 = 0x04 ∧ field w 23 16 ≠ 0) ∨ (field w 31 24 = 0x05 ∧ field w 23 8 ≠ 0) ∨
      (field w 31 24 = 0x06 ∧ field w 23 0 ≠ 0) ∨ (field w 31 24 = 0x07 ∧ field w 23 0 ≠ 0)) :
    ∃ e, decode w = .error e := by
  obtain ⟨op, hd⟩ | ⟨op, -⟩ | ⟨op, hd⟩ | ⟨op, hd⟩ | ⟨op, hd⟩ | ⟨op, hd⟩ | ⟨op, hd⟩ | ⟨-, hd⟩ := decode_cases w
  · exact ⟨_, hd.trans (checkReserved_of_ne_zero _ (by omega))⟩
  · omega
  · exact ⟨_, hd.trans (checkReserved_of_ne_zero _ (by omega))⟩
  · exact ⟨_, hd.trans (checkReserved_of_ne_zero _ (by omega))⟩
  · exact ⟨_, hd.trans (checkReserved_of_ne_zero _ (by omega))⟩
  · exact ⟨_, hd.trans (checkReserved_of_ne_zero _ (by omega))⟩
  · exact ⟨_, hd.trans (checkReserved_of_ne_zero _ (by omega))⟩
  · exact ⟨_, hd⟩

namespace Machine

theorem coreExec_of_decode_ok {w : Word} {i : Instr} (h : decode w = .ok i) (a : Arch) :
    coreExec a w = instrReply i a := by
  simp only [coreExec, h]

theorem coreExec_of_decode_error {w : Word} {e : DecodeError} (h : decode w = .error e) (a : Arch) :
    coreExec a w = raise .illegalCommand a := by
  simp only [coreExec, h, illegalReply]

/-- A step on a presented word takes it and gives the reply of `Exec`, be the word a command or not. -/
theorem step_of_command {s : State} {w : Word} {rest : List HostEvent} (h : s.inbox = .command w :: rest) :
    step s = .next ⟨(coreExec s.arch w).arch, rest, s.outbox ++ [(coreExec s.arch w).rsp]⟩ := by
  cases hd : decode w with
  | ok i => simp only [step, takeEvent, h, hd, exec_eq_complete, complete_eq, coreExec_of_decode_ok hd]
  | error e => simp only [step, takeEvent, h, hd, complete_eq, illegalReply, coreExec_of_decode_error hd]

/-- A decoded command raises an error, or it is OK and then only RDWIN and KEY with a letter return data. -/
theorem instrReply_cases (i : Instr) (a : Arch) :
    (∃ st, st ≠ Status.ok ∧ instrReply i a = raise st a) ∨
    ∃ (d : BitVec 24) (b : Arch), instrReply i a = respond .ok d b ∧
      (d ≠ 0 → i = .rdwin ∨ ∃ x : Letter, i = .key x) := by
  cases i with
  | init => exact .inr ⟨0, Arch.default hw, rfl, fun h => absurd rfl h⟩
  | setrot pos rid ring start =>
    obtain ⟨st, hst, hr⟩ | ⟨p, r, n, x, -, -, -, -, -, hr⟩ := setrotReply_cases pos rid ring start
    · exact .inl ⟨st, hst, hr a⟩
    · exact .inr ⟨0, _, hr a, fun h => absurd rfl h⟩
  | setref ref =>
    obtain hr | ⟨f, -, hr⟩ := setrefReply_cases ref
    · exact .inl ⟨.unknownReflector, by decide, hr a⟩
    · exact .inr ⟨0, _, hr a, fun h => absurd rfl h⟩
  | addplug l r =>
    obtain ⟨st, hst, hr⟩ | ⟨x, y, -, -, -, -, -, hr⟩ := addplugReply_cases l r a
    · exact .inl ⟨st, by rintro rfl; simp at hst, hr⟩
    · exact .inr ⟨0, _, hr, fun h => absurd rfl h⟩
  | key n =>
    obtain ⟨-, hr⟩ | ⟨x, rfl, hr⟩ := keyReply_cases hw n a
    · exact .inl ⟨.dropped, by decide, hr⟩
    · exact .inr ⟨_, _, hr, fun _ => .inr ⟨x, rfl⟩⟩
  | step => exact .inr ⟨0, stepBank hw a, rfl, fun h => absurd rfl h⟩
  | rdwin => exact .inr ⟨_, a, rfl, fun _ => .inl rfl⟩

/-- Every word raises an error, or it is answered OK and then only RDWIN and KEY with a letter return data. -/
theorem coreExec_cases (a : Arch) (w : Word) :
    (∃ st, st ≠ Status.ok ∧ coreExec a w = raise st a) ∨
    ∃ (d : BitVec 24) (b : Arch), coreExec a w = respond .ok d b ∧
      (d ≠ 0 → decode w = .ok .rdwin ∨ ∃ x : Letter, decode w = .ok (.key x)) := by
  cases hd : decode w with
  | ok i => simpa only [coreExec_of_decode_ok hd, Except.ok.injEq] using instrReply_cases i a
  | error e => exact .inl ⟨.illegalCommand, by decide, coreExec_of_decode_error hd a⟩

end Machine

end Sys2Proof

/-! The obligations of 30_encoding.md. -/

section
open Sys2Proof Sys2Proof.Machine

/-- Settles O19: an error leaves the registers and its data field is zero; an OK reply's status field is zero, and its
data is not zero only for the two commands that return any. -/
theorem everyWordIsAnsweredOnceAndErrorsWriteNothing : Obligations.EveryWordIsAnsweredOnceAndErrorsWriteNothing := by
  intro s w rest h
  refine ⟨_, _, step_of_command h, ?_⟩
  obtain ⟨st, -, hr⟩ | ⟨d, b, hr, hd⟩ := coreExec_cases s.arch w
  · have hdata : field (raise st s.arch).rsp 23 0 = 0 := response_data st 0
    rw [hr]
    exact ⟨fun _ => ⟨rfl, hdata⟩, fun hne => absurd hdata hne⟩
  · have hstatus : field (respond .ok d b).rsp 31 24 = 0 := response_status .ok d
    have hdata : field (respond .ok d b).rsp 23 0 = d.toNat := response_data .ok d
    rw [hr, hdata]
    exact ⟨fun hne => absurd hstatus hne, fun hne => hd fun h0 => hne (by rw [h0]; rfl)⟩

/-- Settles O1: nine fixed words, each decoded and encoded. -/
theorem workedEncodingsDecode : Obligations.WorkedEncodingsDecode := by
  unfold Obligations.WorkedEncodingsDecode
  decide

/-- Settles O7: such a word does not decode, and the core answers a word that does not decode by IllegalCommand. -/
theorem illegalWordsAnswerIllegalCommand : Obligations.IllegalWordsAnswerIllegalCommand := by
  intro s w rest h hill
  obtain ⟨e, he⟩ := decode_error_of_illegal hill
  rw [step_of_command h, coreExec_of_decode_error he]
  rfl

end

/-! The datapath beyond its own laws: an inverse is determined by what it undoes, a rotor's two directions undo each other,
and the tables of this hardware are sound. -/

namespace Sys2Proof.Machine

/-- A table that undoes a permutation is its inverse, because the permutation takes every value. -/
theorem eq_inverse_of_undoes {T U : Table} (hT : Perm T) (hU : ∀ i : Letter, U.entry (T.entry i) = i) :
    U = inverse T := by
  refine vector_ext fun j => ?_
  obtain ⟨i, rfl⟩ := perm_surjective hT j
  rw [hU, inverse_get_of_perm hT]

/-- Equal entries of the inverse come from equal letters: the table undoes both sides. -/
theorem inverse_perm {T : Table} (hT : Perm T) : Perm (inverse T) := by
  intro i j h
  rw [← get_inverse_of_perm hT i, h, get_inverse_of_perm hT]

/-- `T` undoes `inverse T`, so it is the inverse of it. -/
theorem inverse_inverse_of_perm {T : Table} (hT : Perm T) : inverse (inverse T) = T :=
  (eq_inverse_of_undoes (inverse_perm hT) (get_inverse_of_perm hT)).symm

/-- The second formula of 40_datapath.md R82. -/
theorem shift_get_mod26_add (T : Table) (k : Int) (i : Letter) :
    (shift T k).entry (mod26 ((i : Int) + k)) = mod26 ((T.entry i : Int) + k) := by
  rw [shift_get, mod26_mod26_sub, add_sub_cancel_right, mod26_letter]

section SoundTables

variable {c : Config} (hc : TablesOk c) (a : Arch)
include hc

theorem rotInv_rotFwd (s : Slot) (x : Letter) : rotInv c a s (rotFwd c a s x) = x :=
  inverse_get_of_perm (cur_perm hc a s) x

theorem rotFwd_rotInv (s : Slot) (x : Letter) : rotFwd c a s (rotInv c a s x) = x :=
  get_inverse_of_perm (cur_perm hc a s) x

theorem reflect_reflect (y : Letter) : reflect c a (reflect c a y) = y :=
  (hc.2 a.REF).1 y

theorem reflect_ne (y : Letter) : reflect c a y ≠ y :=
  (hc.2 a.REF).2 y

end SoundTables

/-- Every entry of the tables of 20_memory.md R41 and R42 is looked at. -/
theorem tablesOk_hw : TablesOk hw := by decide

/-- The composition written out (40_datapath.md R93). -/
theorem pipeline_eq_nine_lookups (c : Config) (a : Arch) (x : Letter) : pipeline c a x =
    plug a (rotInv c a 2 (rotInv c a 1 (rotInv c a 0 (reflect c a
      (rotFwd c a 0 (rotFwd c a 1 (rotFwd c a 2 (plug a x)))))))) := rfl

end Sys2Proof.Machine

/-! The obligations of 40_datapath.md. -/

section
open Sys2Proof Sys2Proof.Machine

/-- Settles O34: the inverse undoes the table in both orders, and what undoes a permutation is its inverse. -/
theorem inverseIsTheUniqueUndoingTable : Obligations.InverseIsTheUniqueUndoingTable := by
  intro T hT
  refine ⟨fun U => ⟨eq_inverse_of_undoes hT, ?_⟩, get_inverse_of_perm hT, inverse_perm hT, inverse_inverse_of_perm hT⟩
  rintro rfl
  exact inverse_get_of_perm hT

/-- Settles O39: the current table of a slot is a permutation, because the wirings of this hardware are. -/
theorem rotorInverseUndoesForward : Obligations.RotorInverseUndoesForward :=
  fun a s x => ⟨rotInv_rotFwd tablesOk_hw a s x, rotFwd_rotInv tablesOk_hw a s x⟩

/-- Settles O35. -/
theorem shiftMovesIndexAndValue : Obligations.ShiftMovesIndexAndValue :=
  fun T k i => ⟨shift_get T k i, shift_get_mod26_add T k i⟩

/-- Settles O41: this hardware's reflectors are involutions without fixed point; with `REF = 0` the two entries of
reflector B are read. -/
theorem reflectorIsAFixedPointFreeInvolution : Obligations.ReflectorIsAFixedPointFreeInvolution := by
  intro a y
  refine ⟨rfl, reflect_reflect tablesOk_hw a y, reflect_ne tablesOk_hw a y, fun href => ?_⟩
  simp only [reflect, href]
  decide

/-- Settles O43: each lookup of the worked example is evaluated from the registers it reads, and the pipeline is their
composition. -/
theorem pipelineRunsItsNineLookupsInOrder : Obligations.PipelineRunsItsNineLookupsInOrder := by
  refine ⟨pipeline_eq_nine_lookups, fun a hID hRING hOFF hREF hPLUG => ?_⟩
  have plugP : plug a 15 = 15 := hPLUG 15 (by decide)
  have plugT : plug a 19 = 19 := hPLUG 19 (by decide)
  have forward : rotFwd hw a 2 15 = 11 ∧ rotFwd hw a 1 11 = 0 ∧ rotFwd hw a 0 0 = 22 := by
    simp only [rotFwd, cur, hID, hRING, hOFF]
    decide
  have reflected : reflect hw a 22 = 13 := by
    simp only [reflect, hREF]
    decide
  have backward : rotInv hw a 0 13 = 19 ∧ rotInv hw a 1 19 = 6 ∧ rotInv hw a 2 6 = 19 := by
    simp only [rotInv, cur, hID, hRING, hOFF]
    decide
  obtain ⟨rightP, middleL, leftA⟩ := forward
  obtain ⟨leftN, middleT, rightG⟩ := backward
  refine ⟨plugP, rightP, middleL, leftA, reflected, leftN, middleT, rightG, ?_⟩
  rw [pipeline_eq_nine_lookups, plugP, rightP, middleL, leftA, reflected, leftN, middleT, rightG, plugT]

end

/-! Stepping beyond its own laws: what many rotations of a slot are, and what one does to the slot's current table. -/

namespace Sys2Proof.Machine

/-- A slot's second offset write replaces the first. -/
theorem setOFF_setOFF (a : Arch) (s : Slot) (x y : Letter) : (a.setOFF s x).setOFF s y = a.setOFF s y := by
  have hoff : ((a.setOFF s x).setOFF s y).OFF = (a.setOFF s y).OFF := vector_ext fun p => by
    by_cases hp : p = s <;> simp [hp]
  exact congrArg (fun off => { a with OFF := off }) hoff

/-- Writing the offset a slot already has changes nothing. -/
theorem setOFF_self (a : Arch) (s : Slot) : a.setOFF s (a.OFF.entry s) = a := by
  have hoff : (a.setOFF s (a.OFF.entry s)).OFF = a.OFF := vector_ext fun p => by
    by_cases hp : p = s <;> simp [hp]
  exact congrArg (fun off => { a with OFF := off }) hoff

/-- Rotations of one slot add up to a single offset write. -/
theorem rotate_iterate (s : Slot) (a : Arch) (n : Nat) :
    (rotate s)^[n] a = a.setOFF s (mod26 ((a.OFF.entry s : Int) + n)) := by
  induction n with
  | zero => simp [setOFF_self]
  | succ n ih =>
    rw [Function.iterate_succ_apply', ih, rotate, setOFF_setOFF, setOFF_OFF_get, if_pos rfl, mod26_add_mod26,
      Nat.cast_succ, add_assoc]

/-- The 26 letters are one full turn. -/
theorem rotate_full_turn (s : Slot) (a : Arch) : (rotate s)^[26] a = a := by
  have hturn : mod26 ((a.OFF.entry s : Int) + (26 : Nat)) = a.OFF.entry s := by
    rw [← mod26_letter (a.OFF.entry s), mod26_eq_iff, mod26_letter]
    omega
  rw [rotate_iterate, hturn, setOFF_self]

/-- Successive shifts add (40_datapath.md R83). -/
theorem shift_shift (T : Table) (k l : Int) : shift (shift T k) l = shift T (k + l) := by
  refine vector_ext fun j => ?_
  rw [shift_get, shift_get, shift_get, mod26_mod26_sub, mod26_add_mod26, sub_sub, add_comm l k, add_assoc]

/-- A shift depends on its distance modulo 26 only (40_datapath.md R83). -/
theorem shift_congr (T : Table) {k l : Int} (h : k % 26 = l % 26) : shift T k = shift T l := by
  refine vector_ext fun j => ?_
  have hindex : mod26 ((j : Int) - k) = mod26 ((j : Int) - l) := (mod26_eq_iff _ _).2 (by omega)
  rw [shift_get, shift_get, hindex, mod26_eq_iff]
  omega

/-- Rotating a slot turns its wiring back by one letter. -/
theorem cur_rotate (c : Config) (a : Arch) (s : Slot) : cur c (rotate s a) s = shift (cur c a s) (-1) := by
  unfold cur
  rw [shift_shift, rotate_ID, rotate_RING, rotate_OFF_get, if_pos rfl]
  refine shift_congr _ ?_
  rw [mod26_val]
  omega

theorem atNotch_iff (c : Config) (a : Arch) (s : Slot) :
    atNotch c a s = true ↔ a.OFF.entry s ∈ c.notch.entry (a.ID.entry s) := by
  simp [atNotch, window]

/-- `StepBank` makes the offsets of the table of 41_stepping.md R104. -/
theorem stepBank_offsetsStepped (c : Config) (a : Arch) : OffsetsStepped c a (stepBank c a) := by
  refine ⟨?_, ?_, stepBank_OFF_right c a⟩
  · simp only [stepBank_OFF_left, atNotch_iff]
  · simp only [stepBank_OFF_middle, Bool.or_eq_true, atNotch_iff]

/-- STEP steps the bank and answers OK with no data. -/
theorem exec_step (s : State) : exec .step s = .next ⟨stepBank hw s.arch, s.inbox, s.outbox ++ [0x00000000#32]⟩ := by
  rw [exec_eq_complete, complete_eq]
  rfl

end Sys2Proof.Machine

namespace Sys2Proof

theorem decode_of_opcode_step {w : Word} (h : field w 31 24 = 0x06) : decode w = checkReserved w 23 0 .step := by
  simp only [decode, h]

end Sys2Proof

/-! The obligations of 41_stepping.md. -/

section
open Sys2Proof Sys2Proof.Machine

/-- Settles O46: a rotation is one offset write; 26 of them add 26 to the offset, and the shift of the current table
counts offsets backwards modulo 26. -/
theorem rotateAdvancesOneOffset : Obligations.RotateAdvancesOneOffset := by
  intro c a s
  have hwritten : (rotate s a).OFF.entry s = mod26 ((a.OFF.entry s : Int) + 1) := by simp
  have hwrap : a.OFF.entry s = 25 → (rotate s a).OFF.entry s = 0 := fun hZ => by
    rw [hwritten, hZ]
    rfl
  have hothers : ∀ p : Slot, p ≠ s → (rotate s a).OFF.entry p = a.OFF.entry p := fun p hp => by simp [hp]
  exact ⟨hwritten, hwrap, hothers, rotate_ID a s, rotate_RING a s, rotate_REF a s, rotate_PLUG a s,
    rotate_full_turn s a, cur_rotate c a s⟩

/-- Settles O16: the decoder's arm of opcode 0x06, and the stepped bank that STEP leaves. -/
theorem stepAdvancesTheBank : Obligations.StepAdvancesTheBank :=
  ⟨fun _ hop => decode_of_opcode_step hop, fun s => ⟨_, exec_step s, rfl, rfl, stepBank_ID hw s.arch,
    stepBank_RING hw s.arch, stepBank_REF hw s.arch, stepBank_PLUG hw s.arch, stepBank_offsetsStepped hw s.arch⟩⟩

end

/-! The configuration commands: the decoder's arm of each opcode, the values the operand fields stand for, and the reply
of each command case by case, in the order of its tests. -/

namespace Sys2Proof

theorem decode_of_opcode_init {w : Word} (h : field w 31 24 = 0x01) : decode w = checkReserved w 23 0 .init := by
  simp only [decode, h]

theorem decode_of_opcode_setrot {w : Word} (h : field w 31 24 = 0x02) :
    decode w = .ok (.setrot (field w 23 20) (field w 19 16) (field w 15 8) (field w 7 0)) := by
  simp only [decode, h]

theorem decode_of_opcode_setref {w : Word} (h : field w 31 24 = 0x03) :
    decode w = checkReserved w 23 8 (.setref (field w 7 0)) := by
  simp only [decode, h]

theorem decode_of_opcode_addplug {w : Word} (h : field w 31 24 = 0x04) :
    decode w = checkReserved w 23 16 (.addplug (field w 15 8) (field w 7 0)) := by
  simp only [decode, h]

namespace Machine

@[simp] theorem rotorOperand_rotor (r : RotorId) : rotorOperand r = some r := (rotorOperand_eq_some _ _).2 rfl

@[simp] theorem slotOperand_slot (p : Slot) : slotOperand p = some p := (slotOperand_eq_some _ _).2 rfl

@[simp] theorem reflOperand_refl (f : ReflId) : reflOperand f = some f := (reflOperand_eq_some _ _).2 rfl

theorem ringOperand_ring {n : RingSetting} (h : 1 ≤ n.val) : ringOperand n = some n :=
  (ringOperand_eq_some _ _).2 ⟨rfl, h⟩

/-- Writes of two distinct entries of `PLUG` commute. -/
theorem setPLUG_comm {x y : Letter} (hxy : x ≠ y) (a : Arch) (u v : Letter) :
    (a.setPLUG x u).setPLUG y v = (a.setPLUG y v).setPLUG x u := by
  have hplug : ((a.setPLUG x u).setPLUG y v).PLUG = ((a.setPLUG y v).setPLUG x u).PLUG := vector_ext fun i => by
    by_cases hi : i = x
    · simp [hi, hxy]
    · simp [hi]
  exact congrArg (fun plug => { a with PLUG := plug }) hplug

/-- A command that raises an error gives that status and changes nothing else (60_exceptions.md R140). -/
theorem exec_of_raise {i : Instr} {s : State} {st : Status} (h : instrReply i s.arch = raise st s.arch) :
    exec i s = .next { s with outbox := s.outbox ++ [response st 0] } := by
  rw [exec_eq_complete, complete_eq, h]
  rfl

/-- A command that responds OK without data leaves the registers of its reply and the queue as it was. -/
theorem exec_of_respond_ok {i : Instr} {s : State} {b : Arch} (h : instrReply i s.arch = respond .ok 0 b) :
    exec i s = .next ⟨b, s.inbox, s.outbox ++ [0x00000000#32]⟩ := by
  rw [exec_eq_complete, complete_eq, h]
  rfl

section Replies

variable (a : Arch)

theorem instrReply_init : instrReply .init a = respond .ok 0 (Arch.default hw) := rfl

theorem instrReply_setrot_of_not_rotor {rid : Nat} (h : 7 < rid) (pos ring start : Nat) :
    instrReply (.setrot pos rid ring start) a = raise .unknownRotor a := by
  simp only [instrReply, setrotReply, (rotorOperand_eq_none rid).2 h]

theorem instrReply_setrot_of_not_slot (r : RotorId) {pos : Nat} (h : 2 < pos) (ring start : Nat) :
    instrReply (.setrot pos r ring start) a = raise .unknownPosition a := by
  simp only [instrReply, setrotReply, rotorOperand_rotor, (slotOperand_eq_none pos).2 h]

theorem instrReply_setrot_of_not_ring (r : RotorId) (p : Slot) {ring : Nat} (h : ring < 1 ∨ 26 < ring) (start : Nat) :
    instrReply (.setrot p r ring start) a = raise .invalidRingSetting a := by
  simp only [instrReply, setrotReply, rotorOperand_rotor, slotOperand_slot, (ringOperand_eq_none ring).2 h]

theorem instrReply_setrot_of_not_letter (r : RotorId) (p : Slot) {n : RingSetting} (hn : 1 ≤ n.val) {start : Nat}
    (h : 25 < start) : instrReply (.setrot p r n start) a = raise .invalidStartPosition a := by
  simp only [instrReply, setrotReply, rotorOperand_rotor, slotOperand_slot, ringOperand_ring hn,
    (letterOperand_eq_none start).2 h]

theorem instrReply_setrot_of_legal (r : RotorId) (p : Slot) {n : RingSetting} (hn : 1 ≤ n.val) (x : Letter) :
    instrReply (.setrot p r n x) a = respond .ok 0 (((a.setID p r).setRING p n).setOFF p x) := by
  simp only [instrReply, setrotReply, rotorOperand_rotor, slotOperand_slot, ringOperand_ring hn, letterOperand_letter]

theorem instrReply_setref_of_not_refl {ref : Nat} (h : 1 < ref) :
    instrReply (.setref ref) a = raise .unknownReflector a := by
  simp only [instrReply, setrefReply, (reflOperand_eq_none ref).2 h]

theorem instrReply_setref_of_refl (f : ReflId) : instrReply (.setref f) a = respond .ok 0 (a.setREF f) := by
  simp only [instrReply, setrefReply, reflOperand_refl]

/-- The format errors: a field that is no letter, or one letter twice. -/
theorem instrReply_addplug_of_not_pair {l r : Nat} (h : 25 < l ∨ 25 < r ∨ l = r) :
    instrReply (.addplug l r) a = raise .invalidPlugFormat a := by
  change addplugReply l r a = _
  unfold addplugReply
  cases hl : letterOperand l with
  | none => rfl
  | some x =>
    cases hr : letterOperand r with
    | none => rfl
    | some y =>
      rw [letterOperand_eq_some] at hl hr
      exact if_pos (Fin.ext (by omega))

variable {a} {x y : Letter} (hxy : x ≠ y)
include hxy

theorem instrReply_addplug_of_paired (h : a.PLUG.entry x ≠ x ∨ a.PLUG.entry y ≠ y) :
    instrReply (.addplug x y) a = raise .duplicatePlug a := by
  simp only [instrReply, addplugReply, letterOperand_letter, if_neg hxy, if_pos h]

theorem instrReply_addplug_of_unpaired (hx : a.PLUG.entry x = x) (hy : a.PLUG.entry y = y) :
    instrReply (.addplug x y) a = respond .ok 0 ((a.setPLUG x y).setPLUG y x) := by
  have hfree : ¬ (a.PLUG.entry x ≠ x ∨ a.PLUG.entry y ≠ y) := by simp [hx, hy]
  simp only [instrReply, addplugReply, letterOperand_letter, if_neg hxy, if_neg hfree]

end Replies

/-- Left III, middle II, right I, rings 1, start A, reflector B (42_config_commands.md R110). -/
theorem default_hw_bank : (Arch.default hw).ID = #v[2, 1, 0] ∧ (Arch.default hw).RING = #v[1, 1, 1] ∧
    (Arch.default hw).OFF = #v[0, 0, 0] ∧ (Arch.default hw).REF = 0 := by decide

/-- SETROT writes the operands to its slot and leaves the other slots (42_config_commands.md R111). -/
theorem setrot_entries (a : Arch) (p q : Slot) (r : RotorId) (n : RingSetting) (x : Letter) :
    let b := ((a.setID p r).setRING p n).setOFF p x
    (q = p → b.ID.entry q = r ∧ b.RING.entry q = n ∧ b.OFF.entry q = x) ∧
    (q ≠ p → b.ID.entry q = a.ID.entry q ∧ b.RING.entry q = a.RING.entry q ∧ b.OFF.entry q = a.OFF.entry q) := by
  constructor <;> intro hq <;> simp [hq]

end Machine

end Sys2Proof

/-! The obligations of 42_config_commands.md. -/

section
open Sys2Proof Sys2Proof.Machine

/-- Settles O10: the decoder's arm of opcode 0x01, and the default registers, which INIT's reply has whatever the state
was. -/
theorem initRestoresTheDefaultConfiguration : Obligations.InitRestoresTheDefaultConfiguration := by
  refine ⟨fun _ hop => decode_of_opcode_init hop, fun s => ?_⟩
  obtain ⟨hid, hring, hoff, href⟩ := default_hw_bank
  exact ⟨_, exec_of_respond_ok (instrReply_init s.arch), rfl, rfl, hid, hring, hoff, href, noPlugs_get⟩

/-- Settles O11: an operand that passes its test is a rotor, a slot, a ring setting or a letter, so each clause is one
case of SETROT's reply. -/
theorem setrotInstallsOrReports : Obligations.SetrotInstallsOrReports := by
  refine ⟨fun _ hop => decode_of_opcode_setrot hop, fun s pos rid ring start => ?_⟩
  refine ⟨fun hrid => exec_of_raise (instrReply_setrot_of_not_rotor s.arch hrid pos ring start), fun hrid hpos => ?_,
    fun hrid hpos hring => ?_, fun hrid hpos h1 h26 hstart => ?_, fun hrid hpos h1 h26 hstart => ?_⟩
  all_goals lift rid to RotorId using Nat.lt_succ_of_le hrid with r
  · exact exec_of_raise (instrReply_setrot_of_not_slot s.arch r hpos ring start)
  all_goals lift pos to Slot using Nat.lt_succ_of_le hpos with p
  · exact exec_of_raise (instrReply_setrot_of_not_ring s.arch r p hring start)
  all_goals lift ring to RingSetting using Nat.lt_succ_of_le h26 with n
  · exact exec_of_raise (instrReply_setrot_of_not_letter s.arch r p h1 hstart)
  · lift start to Letter using Nat.lt_succ_of_le hstart with x
    refine ⟨_, exec_of_respond_ok (instrReply_setrot_of_legal s.arch r p h1 x), rfl, rfl, rfl, rfl, fun q => ?_⟩
    obtain ⟨hsame, hother⟩ := setrot_entries s.arch p q r n x
    simp only [← Fin.ext_iff, ne_eq]
    exact ⟨hsame, hother⟩

/-- Settles O12: the decoder's arm of opcode 0x03, and the two cases of SETREF's reply. -/
theorem setrefSelectsOrReports : Obligations.SetrefSelectsOrReports :=
  ⟨fun _ hop => decode_of_opcode_setref hop, fun s _ href => exec_of_raise (instrReply_setref_of_not_refl s.arch href),
    fun s f => exec_of_respond_ok (instrReply_setref_of_refl s.arch f)⟩

/-- Settles O13: the two orders of a pair make the same two writes, which commute; after them both letters are paired,
so that either order is a duplicate. -/
theorem addplugInstallsOrReports : Obligations.AddplugInstallsOrReports := by
  refine ⟨fun _ hop => decode_of_opcode_addplug hop,
    fun s _ _ h => exec_of_raise (instrReply_addplug_of_not_pair s.arch h),
    fun s x y hxy h => exec_of_raise (instrReply_addplug_of_paired hxy h), fun s x y hxy hx hy => ?_⟩
  have hexec := exec_of_respond_ok (s := s) (instrReply_addplug_of_unpaired hxy hx hy)
  have hswapped := exec_of_respond_ok (s := s) (instrReply_addplug_of_unpaired hxy.symm hy hx)
  rw [setPLUG_comm hxy.symm] at hswapped
  have hplugx : ((s.arch.setPLUG x y).setPLUG y x).PLUG.entry x = y := by simp [hxy]
  have hplugy : ((s.arch.setPLUG x y).setPLUG y x).PLUG.entry y = x := by simp
  have hpaired : ((s.arch.setPLUG x y).setPLUG y x).PLUG.entry x ≠ x := by rw [hplugx]; exact hxy.symm
  exact ⟨_, hexec, hswapped, rfl, rfl, rfl, rfl, rfl, rfl, hplugx, hplugy, fun i hix hiy => by simp [hix, hiy],
    exec_of_raise (instrReply_addplug_of_paired hxy (.inl hpaired)),
    exec_of_raise (instrReply_addplug_of_paired hxy.symm (.inr hpaired))⟩

end

/-! The runtime commands: the decoder's arms of KEY and RDWIN, the replies of KEY, and the responses with a letter
or the three windows. -/

namespace Sys2Proof

theorem decode_of_opcode_key {w : Word} (h : field w 31 24 = 0x05) :
    decode w = checkReserved w 23 8 (.key (field w 7 0)) := by
  simp only [decode, h]

theorem decode_of_opcode_rdwin {w : Word} (h : field w 31 24 = 0x07) : decode w = checkReserved w 23 0 .rdwin := by
  simp only [decode, h]

/-- The upper 24 bits of a KEY word are its opcode and a clear reserved field (30_encoding.md R61). -/
theorem decode_of_key_prefix {w : Word} (h : field w 31 8 = 0x050000) : decode w = .ok (.key (field w 7 0)) := by
  rw [field_eq] at h
  have hop : field w 31 24 = 0x05 := by rw [field_eq]; omega
  have hreserved : field w 23 8 = 0 := by rw [field_eq]; omega
  rw [decode_of_opcode_key hop, checkReserved, if_pos hreserved]

namespace Machine

/-- KEY with a non-letter is refused (43_runtime_commands.md R124). -/
theorem instrReply_key_of_not_letter {n : Nat} (h : 25 < n) (a : Arch) : instrReply (.key n) a = raise .dropped a := by
  simp only [instrReply, keyReply, (letterOperand_eq_none n).2 h, raise]

/-- KEY with a letter encodes it on the stepped bank (43_runtime_commands.md R120). -/
theorem instrReply_key_of_letter (x : Letter) (a : Arch) :
    instrReply (.key x) a = respond .ok (zext 24 (pipeline hw (stepBank hw a) x)) (stepBank hw a) := by
  simp only [instrReply, keyReply, letterOperand_letter]

/-- A letter fits in five bits, so that extending it to five or more loses nothing. -/
theorem zext_toNat {n : Nat} (hn : 5 ≤ n) (x : Letter) : (zext n x).toNat = x := by
  have hfits : 2 ^ 5 ≤ 2 ^ n := Nat.pow_le_pow_right (by decide) hn
  rw [zext, BitVec.toNat_ofNat, Nat.mod_eq_of_lt (by omega)]

/-- An OK response that carries a letter is the letter's index as a word: the status code is 0. -/
theorem response_ok_letter (x : Letter) : response .ok (zext 24 x) = BitVec.ofNat 32 x := by
  apply BitVec.eq_of_toNat_eq
  rw [response, toNat_append, zext_toNat (by decide), BitVec.toNat_ofNat, Nat.mod_eq_of_lt (x.isLt.trans (by decide))]
  simp [Status.code]

/-- The three data bytes of a response, read back. -/
theorem response_bytes (st : Status) (x y z : BitVec 8) :
    field (response st (x ++ y ++ z)) 23 16 = x.toNat ∧ field (response st (x ++ y ++ z)) 15 8 = y.toNat ∧
      field (response st (x ++ y ++ z)) 7 0 = z.toNat := by
  have hx := x.isLt
  have hy := y.isLt
  have hz := z.isLt
  simp only [field_eq, response, toNat_append]
  omega

end Machine

end Sys2Proof

/-! The obligations of 43_runtime_commands.md. -/

section
open Sys2Proof Sys2Proof.Machine

/-- Settles O14: the decoder's arm of opcode 0x05, and the two cases of KEY's reply; with a letter the registers left
are those of the stepped bank. -/
theorem keyStepsThenEncodes : Obligations.KeyStepsThenEncodes := by
  refine ⟨fun _ hop => decode_of_opcode_key hop, fun s _ hx => exec_of_raise (instrReply_key_of_not_letter hx s.arch),
    fun s x => ?_⟩
  have hexec : exec (.key x) s = .next ⟨stepBank hw s.arch, s.inbox,
      s.outbox ++ [BitVec.ofNat 32 (pipeline hw (stepBank hw s.arch) x)]⟩ := by
    rw [exec_eq_complete, complete_eq, instrReply_key_of_letter, respond, response_ok_letter]
  exact ⟨_, hexec, rfl, stepBank_ID hw s.arch, stepBank_RING hw s.arch, stepBank_REF hw s.arch,
    stepBank_PLUG hw s.arch, stepBank_offsetsStepped hw s.arch, rfl⟩

/-- Settles O15: such a word decodes to KEY of its low byte, which is no letter. -/
theorem nonLetterKeysAreDropped : Obligations.NonLetterKeysAreDropped := by
  intro s w rest hinbox hprefix hbyte
  rw [step_of_command hinbox, coreExec_of_decode_ok (decode_of_key_prefix hprefix),
    instrReply_key_of_not_letter hbyte]
  rfl

/-- Settles O17: the decoder's arm of opcode 0x07, and the bytes of RDWIN's response, each wide enough for a letter. -/
theorem rdwinReturnsTheWindows : Obligations.RdwinReturnsTheWindows := by
  refine ⟨fun _ hop => decode_of_opcode_rdwin hop, fun s => ?_⟩
  obtain ⟨hleft, hmiddle, hright⟩ :=
    response_bytes .ok (zext 8 (window s.arch 0)) (zext 8 (window s.arch 1)) (zext 8 (window s.arch 2))
  have hletter : ∀ x : Letter, (zext 8 x).toNat = x := zext_toNat (by decide)
  exact ⟨(rdwinReply s.arch).rsp, exec_eq_complete .rdwin s, response_status .ok _, hleft.trans (hletter _),
    hmiddle.trans (hletter _), hright.trans (hletter _)⟩

end

/-! The commands that cannot fail: their reply is OK whatever the registers are. -/

namespace Sys2Proof.Machine

/-- INIT, STEP, RDWIN and KEY with a letter respond OK: none of them tests the registers (60_exceptions.md R151). -/
theorem instrReply_ok_of_never_fails {i : Instr} (h : i = .init ∨ i = .step ∨ i = .rdwin ∨ ∃ x : Letter, i = .key x)
    (a : Arch) : ∃ (d : BitVec 24) (b : Arch), instrReply i a = respond .ok d b := by
  obtain rfl | rfl | rfl | ⟨x, rfl⟩ := h
  · exact ⟨_, _, instrReply_init a⟩
  · exact ⟨0, stepBank hw a, rfl⟩
  · exact ⟨_, a, rfl⟩
  · exact ⟨_, _, instrReply_key_of_letter x a⟩

end Sys2Proof.Machine

/-! The obligations of 60_exceptions.md. -/

section
open Sys2Proof Sys2Proof.Machine

/-- Settles O18: each of the four commands completes with an OK reply, whose status field is zero whatever its data. -/
theorem initStepRdwinKeyNeverFail : Obligations.InitStepRdwinKeyNeverFail := by
  intro s i hi
  obtain ⟨d, b, hreply⟩ := instrReply_ok_of_never_fails hi s.arch
  have hexec : exec i s = .next ⟨b, s.inbox, s.outbox ++ [response .ok d]⟩ := by
    rw [exec_eq_complete, complete_eq, hreply, respond]
  exact ⟨_, _, hexec, rfl, response_status .ok d⟩

end

/-! The decoder in both directions: the words that decode, and the words that commands encode to. -/

namespace Sys2Proof

theorem checkReserved_of_eq_zero {w : Word} {hi lo : Nat} (i : Instr) (h : field w hi lo = 0) :
    checkReserved w hi lo i = .ok i :=
  if_pos h

theorem checkReserved_eq_ok_iff (w : Word) (hi lo : Nat) (i j : Instr) :
    checkReserved w hi lo i = .ok j ↔ field w hi lo = 0 ∧ i = j := by
  unfold checkReserved
  split <;> simp [*]

/-- Every command's word carries the command's opcode in bits 31:24. -/
theorem field_encode_opcode (i : Instr) : field (encode i) 31 24 = i.opcode := by
  cases i with
  | init => exact Laws.OpcodeField.init
  | setrot pos rid ring start => exact Laws.OpcodeField.setrot pos rid ring start
  | setref ref => exact Laws.OpcodeField.setref ref
  | addplug a b => exact Laws.OpcodeField.addplug a b
  | key x => exact Laws.OpcodeField.key x
  | step => exact Laws.OpcodeField.step
  | rdwin => exact Laws.OpcodeField.rdwin

theorem wellFormed_setrot_iff (pos rid ring start : Nat) :
    (Instr.setrot pos rid ring start).WellFormed ↔ pos < 16 ∧ rid < 16 ∧ ring < 256 ∧ start < 256 := by
  simp [Instr.WellFormed, Instr.fits, and_assoc]

theorem wellFormed_setref_iff (ref : Nat) : (Instr.setref ref).WellFormed ↔ ref < 256 := by
  simp [Instr.WellFormed, Instr.fits]

theorem wellFormed_addplug_iff (a b : Nat) : (Instr.addplug a b).WellFormed ↔ a < 256 ∧ b < 256 := by
  simp [Instr.WellFormed, Instr.fits]

theorem wellFormed_key_iff (x : Nat) : (Instr.key x).WellFormed ↔ x < 256 := by
  simp [Instr.WellFormed, Instr.fits]

theorem encode_setrot_fields {pos rid ring start : Nat} (h : (Instr.setrot pos rid ring start).WellFormed) :
    field (encode (.setrot pos rid ring start)) 23 20 = pos ∧ field (encode (.setrot pos rid ring start)) 19 16 = rid ∧
      field (encode (.setrot pos rid ring start)) 15 8 = ring ∧
      field (encode (.setrot pos rid ring start)) 7 0 = start := by
  rw [wellFormed_setrot_iff] at h
  simp only [encode, field_eq, toNat_append, BitVec.toNat_ofNat]
  omega

theorem encode_setref_fields {ref : Nat} (h : (Instr.setref ref).WellFormed) :
    field (encode (.setref ref)) 23 8 = 0 ∧ field (encode (.setref ref)) 7 0 = ref := by
  rw [wellFormed_setref_iff] at h
  simp only [encode, field_eq, toNat_append, BitVec.toNat_ofNat]
  omega

theorem encode_addplug_fields {a b : Nat} (h : (Instr.addplug a b).WellFormed) :
    field (encode (.addplug a b)) 23 16 = 0 ∧ field (encode (.addplug a b)) 15 8 = a ∧
      field (encode (.addplug a b)) 7 0 = b := by
  rw [wellFormed_addplug_iff] at h
  simp only [encode, field_eq, toNat_append, BitVec.toNat_ofNat]
  omega

theorem encode_key_fields {x : Nat} (h : (Instr.key x).WellFormed) :
    field (encode (.key x)) 23 8 = 0 ∧ field (encode (.key x)) 7 0 = x := by
  rw [wellFormed_key_iff] at h
  simp only [encode, field_eq, toNat_append, BitVec.toNat_ofNat]
  omega

/-- The opcode of the word selects the command's arm of the decoder, and that arm reads back the operands. -/
theorem decode_encode {i : Instr} (h : i.WellFormed) : decode (encode i) = .ok i := by
  have hop := field_encode_opcode i
  cases i with
  | init => decide
  | setrot pos rid ring start =>
    obtain ⟨hpos, hrid, hring, hstart⟩ := encode_setrot_fields h
    rw [decode_of_opcode_setrot hop, hpos, hrid, hring, hstart]
  | setref ref =>
    obtain ⟨hreserved, href⟩ := encode_setref_fields h
    rw [decode_of_opcode_setref hop, checkReserved_of_eq_zero _ hreserved, href]
  | addplug a b =>
    obtain ⟨hreserved, ha, hb⟩ := encode_addplug_fields h
    rw [decode_of_opcode_addplug hop, checkReserved_of_eq_zero _ hreserved, ha, hb]
  | key x =>
    obtain ⟨hreserved, hx⟩ := encode_key_fields h
    rw [decode_of_opcode_key hop, checkReserved_of_eq_zero _ hreserved, hx]
  | step => decide
  | rdwin => decide

/-- The words that are commands, format by format: the opcode, the reserved field clear, and the operands read. -/
theorem decode_eq_ok_iff (w : Word) (i : Instr) : decode w = .ok i ↔
    (field w 31 24 = 0x01 ∧ field w 23 0 = 0 ∧ .init = i) ∨
    (field w 31 24 = 0x02 ∧ .setrot (field w 23 20) (field w 19 16) (field w 15 8) (field w 7 0) = i) ∨
    (field w 31 24 = 0x03 ∧ field w 23 8 = 0 ∧ .setref (field w 7 0) = i) ∨
    (field w 31 24 = 0x04 ∧ field w 23 16 = 0 ∧ .addplug (field w 15 8) (field w 7 0) = i) ∨
    (field w 31 24 = 0x05 ∧ field w 23 8 = 0 ∧ .key (field w 7 0) = i) ∨
    (field w 31 24 = 0x06 ∧ field w 23 0 = 0 ∧ .step = i) ∨
    (field w 31 24 = 0x07 ∧ field w 23 0 = 0 ∧ .rdwin = i) := by
  obtain ⟨op, hd⟩ | ⟨op, hd⟩ | ⟨op, hd⟩ | ⟨op, hd⟩ | ⟨op, hd⟩ | ⟨op, hd⟩ | ⟨op, hd⟩ | ⟨op, hd⟩ := decode_cases w
  on_goal 8 => simp only [hd, reduceCtorEq, false_iff]; omega
  all_goals simp [op, hd, checkReserved_eq_ok_iff]

/-- A word that decodes has the bits of the command it decodes to: each format is its fields in their places. -/
theorem encode_of_decode {w : Word} {i : Instr} (h : decode w = .ok i) : i.WellFormed ∧ encode i = w := by
  have hw := word_toNat_lt w
  obtain ⟨op, hz, rfl⟩ | ⟨op, rfl⟩ | ⟨op, hz, rfl⟩ | ⟨op, hz, rfl⟩ | ⟨op, hz, rfl⟩ | ⟨op, hz, rfl⟩ | ⟨op, hz, rfl⟩ :=
    (decode_eq_ok_iff w i).1 h
  all_goals
    simp only [field_eq] at *
    refine ⟨?_, BitVec.eq_of_toNat_eq ?_⟩
  all_goals
    simp only [Instr.WellFormed, Instr.fits, encode, toNat_append, BitVec.toNat_ofNat, Bool.and_eq_true,
      decide_eq_true_eq]
  all_goals omega

end Sys2Proof

/-! The opcode table as masks, and the obligations of 30_encoding.md on the decoder. -/

namespace Sys2Proof

/-- The bits of a word from `lo` up, in their places: a mask of leading ones keeps them. -/
theorem toNat_and_leadingOnes (w : Word) (lo : Nat) :
    (w &&& BitVec.allOnes CMD_WIDTH <<< lo).toNat = w.toNat / 2 ^ lo * 2 ^ lo := by
  have hshift : w &&& BitVec.allOnes CMD_WIDTH <<< lo = w >>> lo <<< lo := by
    ext i hi
    simp only [BitVec.getElem_and, BitVec.getElem_shiftLeft, BitVec.getElem_allOnes]
    by_cases hlo : i < lo
    · simp [hlo]
    · simp [hlo, ← BitVec.getLsbD_eq_getElem, Nat.add_sub_cancel' (Nat.le_of_not_lt hlo)]
  rw [hshift, BitVec.toNat_shiftLeft, BitVec.toNat_ushiftRight, Nat.shiftLeft_eq, Nat.shiftRight_eq_div_pow,
    Nat.mod_eq_of_lt ((Nat.div_mul_le_self _ _).trans_lt w.isLt)]

/-- A row whose mask is the ones from bit `lo` up selects the words that agree with its match there. -/
theorem selects_iff {r : OpcodeRow} (lo : Nat) (hmask : r.mask = BitVec.allOnes CMD_WIDTH <<< lo) (w : Word) :
    r.selects w = true ↔ w.toNat / 2 ^ lo * 2 ^ lo = r.value.toNat := by
  rw [OpcodeRow.selects, beq_iff_eq, hmask, ← toNat_and_leadingOnes, BitVec.toNat_inj]

/-- A defined opcode and a clear reserved field (30_encoding.md R61, R63, R68): what the decoder and the opcode table
both test. -/
def HasCommandFormat (w : Word) : Prop :=
  (field w 31 24 = 0x01 ∧ field w 23 0 = 0) ∨ field w 31 24 = 0x02 ∨ (field w 31 24 = 0x03 ∧ field w 23 8 = 0) ∨
  (field w 31 24 = 0x04 ∧ field w 23 16 = 0) ∨ (field w 31 24 = 0x05 ∧ field w 23 8 = 0) ∨
  (field w 31 24 = 0x06 ∧ field w 23 0 = 0) ∨ (field w 31 24 = 0x07 ∧ field w 23 0 = 0)

theorem exists_row_selects_iff (w : Word) : (∃ r ∈ opcodeRows, r.selects w = true) ↔ HasCommandFormat w := by
  have hw := word_toNat_lt w
  simp only [opcodeRows, List.exists_mem_cons_iff, List.not_mem_nil, false_and, exists_false, or_false]
  rw [selects_iff 0 rfl, selects_iff 24 rfl, selects_iff 8 rfl, selects_iff 16 rfl, selects_iff 8 rfl, selects_iff 0 rfl,
    selects_iff 0 rfl]
  simp only [HasCommandFormat, field_eq, BitVec.toNat_ofNat, CMD_WIDTH]
  iterate 6 refine or_congr (by omega) ?_
  omega

theorem exists_decode_ok_iff (w : Word) : (∃ i, decode w = .ok i) ↔ HasCommandFormat w := by
  simp only [HasCommandFormat, decode_eq_ok_iff, exists_or, exists_and_left, exists_eq', and_true]

theorem field_opcode_of_decode {w : Word} {i : Instr} (h : decode w = .ok i) : field w 31 24 = i.opcode := by
  rw [← (encode_of_decode h).2, field_encode_opcode]

theorem row_mask_covers_opcode : ∀ r ∈ opcodeRows,
    r.mask &&& BitVec.allOnes CMD_WIDTH <<< 24 = BitVec.allOnes CMD_WIDTH <<< 24 ∧ field r.value 31 24 = r.opcode := by
  decide

/-- The row's opcode stands in the word's bits 31:24, which every mask of the table covers. -/
theorem field_opcode_of_selects {w : Word} {r : OpcodeRow} (hr : r ∈ opcodeRows) (h : r.selects w = true) :
    field w 31 24 = r.opcode := by
  obtain ⟨hmask, hvalue⟩ := row_mask_covers_opcode r hr
  have hleading : w &&& BitVec.allOnes CMD_WIDTH <<< 24 = r.value &&& BitVec.allOnes CMD_WIDTH <<< 24 := by
    rw [← beq_iff_eq.1 h, BitVec.and_assoc, hmask]
  have hbits := congrArg BitVec.toNat hleading
  rw [toNat_and_leadingOnes, toNat_and_leadingOnes] at hbits
  rw [← hvalue, field_eq, field_eq]
  omega

theorem row_of_opcode : ∀ r ∈ opcodeRows, ∀ r' ∈ opcodeRows, r.opcode = r'.opcode → r = r' := by decide

end Sys2Proof

section
open Sys2Proof Sys2Proof.Machine

/-- Settles O2: the opcode selects the command's arm of the decoder, and a field as wide as its operand reads it back. -/
theorem decodeOfEncodeIsTheCommand : Obligations.DecodeOfEncodeIsTheCommand :=
  fun _ => decode_encode

/-- Settles O3: a word that decodes is its fields in their places, and a field is below the bound of its width. -/
theorem encodeOfDecodeIsTheWord : Obligations.EncodeOfDecodeIsTheWord :=
  fun _ _ => encode_of_decode

/-- Settles O4: decoder and table accept the same format; bits 31:24 are the opcode of the command and of any row that
selects the word, and the opcodes of the table are distinct. -/
theorem decoderFollowsTheOpcodeTable : Obligations.DecoderFollowsTheOpcodeTable := by
  refine ⟨fun w => (exists_decode_ok_iff w).trans (exists_row_selects_iff w).symm, fun w i hi r hr hs => ?_,
    fun w r hr r' hr' hs hs' => row_of_opcode r hr r' hr' ?_⟩
  · rw [← field_opcode_of_decode hi, field_opcode_of_selects hr hs]
  · rw [← field_opcode_of_selects hr hs, field_opcode_of_selects hr' hs']

end

/-! The step and the run: what each event does, what every command keeps, and the run as a fold. -/

namespace Sys2Proof

theorem decode_of_decodeTableWord {w : Nat} {i : Instr} (h : decodeTableWord 32 w = some i) :
    decode (BitVec.ofNat CMD_WIDTH (w % 2 ^ 32)) = .ok i := by
  rw [decodeTableWord, if_pos (Nat.mod_lt _ (by decide))] at h
  cases hd : decode (BitVec.ofNat CMD_WIDTH (w % 2 ^ 32)) with
  | ok j => rw [hd] at h; exact congrArg Except.ok (Option.some.inj h)
  | error e => rw [hd] at h; cases h

namespace Machine

theorem step_of_inbox_empty {s : State} (h : s.inbox = []) : step s = .next s := by
  simp only [step, takeEvent, h]

theorem step_of_reset {s : State} {abandoned : Option Word} {rest : List HostEvent}
    (h : s.inbox = .reset abandoned :: rest) :
    step s = .next { s with arch := State.reset.arch, inbox := rest } := by
  simp only [step, takeEvent, h]
  rfl

/-- The command runs on the state from which its word has been taken. -/
theorem step_of_decode_ok {s : State} {w : Word} {rest : List HostEvent} {i : Instr}
    (h : s.inbox = .command w :: rest) (hd : decode w = .ok i) : step s = exec i { s with inbox := rest } := by
  simp only [step, takeEvent, h, hd]

/-- No event stops the machine. -/
theorem step_next (s : State) : ∃ t, step s = .next t := by
  obtain ⟨-, h⟩ | ⟨_, _, -, h⟩ | ⟨_, _, _, -, -, h⟩ | ⟨_, _, _, -, -, h⟩ := step_cases s
  all_goals exact ⟨_, h⟩

section Invariant

variable {a : Arch}

/-- I2 and the upper bounds of I1 hold by the registers' types; what is left is the lower bound of the ring settings
and I3 (10_state.md R27). -/
theorem inv_iff : a.Inv ↔ (∀ s : Slot, 1 ≤ (a.RING.entry s).val) ∧ SelfInverse a.PLUG := by
  constructor
  · rintro ⟨hslots, -, hplug⟩
    exact ⟨fun s => (hslots s).2.1.1, hplug⟩
  · rintro ⟨hring, hplug⟩
    exact ⟨fun s => ⟨by omega, ⟨hring s, by omega⟩, by omega⟩, by omega, hplug⟩

/-- The invariant reads `RING` and `PLUG` only. -/
theorem inv_congr {b : Arch} (hring : b.RING = a.RING) (hplug : b.PLUG = a.PLUG) (h : a.Inv) : b.Inv := by
  rw [inv_iff] at h ⊢
  rwa [hring, hplug]

theorem default_hw_inv : (Arch.default hw).Inv := by decide

theorem stepBank_inv (c : Config) (h : a.Inv) : (stepBank c a).Inv :=
  inv_congr (stepBank_RING c a) (stepBank_PLUG c a) h

/-- A legal ring setting in one slot keeps the invariant, whatever rotor and start letter go with it. -/
theorem setrot_inv (h : a.Inv) (p : Slot) (r : RotorId) {n : RingSetting} (hn : 1 ≤ n.val) (x : Letter) :
    (((a.setID p r).setRING p n).setOFF p x).Inv := by
  rw [inv_iff] at h ⊢
  obtain ⟨hring, hplug⟩ := h
  refine ⟨fun s => ?_, hplug⟩
  by_cases hs : s = p
  · simpa [hs] using hn
  · simpa [hs] using hring s

/-- Joining two letters that stand for themselves keeps the plugboard an involution: no other letter is joined to
either. -/
theorem setPLUG_pair_inv (h : a.Inv) {x y : Letter} (hxy : x ≠ y) (hx : a.PLUG.entry x = x) (hy : a.PLUG.entry y = y) :
    ((a.setPLUG x y).setPLUG y x).Inv := by
  rw [inv_iff] at h ⊢
  obtain ⟨hring, hplug⟩ := h
  refine ⟨hring, fun i => ?_⟩
  have hi := hplug i
  by_cases hiy : i = y
  · simp [hiy, hxy]
  by_cases hix : i = x
  · simp [hix, hxy]
  have hne : ∀ z, a.PLUG.entry z = z → i ≠ z → a.PLUG.entry i ≠ z := fun z hz hiz he => by
    rw [he, hz] at hi
    exact hiz hi.symm
  simp [hiy, hix, hne x hx hix, hne y hy hiy, hi]

/-- Every command keeps the invariant (10_state.md R27). -/
theorem instrReply_inv (i : Instr) (h : a.Inv) : (instrReply i a).arch.Inv := by
  cases i with
  | init => exact default_hw_inv
  | setrot pos rid ring start =>
    change (setrotReply pos rid ring start a).arch.Inv
    obtain ⟨st, -, hr⟩ | ⟨p, r, n, x, -, -, rfl, hn, -, hr⟩ := setrotReply_cases pos rid ring start
    · rw [hr]; exact h
    · rw [hr]; exact setrot_inv h p r hn x
  | setref ref =>
    change (setrefReply ref a).arch.Inv
    obtain hr | ⟨f, -, hr⟩ := setrefReply_cases ref
    · rw [hr]; exact h
    · rw [hr]; exact inv_congr (setREF_RING a f) (setREF_PLUG a f) h
  | addplug l r =>
    change (addplugReply l r a).arch.Inv
    obtain ⟨st, -, hr⟩ | ⟨x, y, -, -, hxy, hx, hy, hr⟩ := addplugReply_cases l r a
    · rw [hr]; exact h
    · rw [hr]; exact setPLUG_pair_inv h hxy hx hy
  | key n =>
    change (keyReply hw n a).arch.Inv
    obtain ⟨-, hr⟩ | ⟨x, -, hr⟩ := keyReply_cases hw n a
    · rw [hr]; exact h
    · rw [hr]; exact stepBank_inv hw h
  | step => exact stepBank_inv hw h
  | rdwin => exact h

/-- Every step keeps the invariant: waiting and an illegal word leave the registers, a reset writes the default. -/
theorem step_inv {s t : State} (h : s.Inv) (hstep : step s = .next t) : t.Inv := by
  obtain ⟨-, he⟩ | ⟨_, _, -, he⟩ | ⟨_, _, i, -, -, he⟩ | ⟨_, _, _, -, -, he⟩ := step_cases s
  all_goals
    rw [he] at hstep
    cases hstep
  · exact h
  · exact default_hw_inv
  · exact instrReply_inv i h
  · exact h

end Invariant

/-- A run goes on as long as it is asked to, because every step answers a next state. -/
theorem safeRun (n : Nat) (s : State) : SafeRun n s := by
  induction n generalizing s with
  | zero => exact ⟨s, run_zero s⟩
  | succ n ih =>
    obtain ⟨t, ht⟩ := step_next s
    rw [SafeRun, run_succ ht]
    exact ih t

/-- As many steps as there are command words presented: the registers and the responses of the fold of `Exec`. -/
theorem run_commands (ws : List Word) (a : Arch) (rest : List HostEvent) (out : List Response) :
    run ws.length ⟨a, ws.map .command ++ rest, out⟩ = .next ⟨(coreRun a ws).1, rest, out ++ (coreRun a ws).2⟩ := by
  induction ws generalizing a out with
  | nil => simp [coreRun]
  | cons w ws ih =>
    have hstep : step ⟨a, (w :: ws).map .command ++ rest, out⟩ =
        .next ⟨(coreExec a w).arch, ws.map .command ++ rest, out ++ [(coreExec a w).rsp]⟩ := step_of_command rfl
    rw [List.length_cons, run_succ hstep, ih, coreRun, List.append_assoc, List.singleton_append]

end Machine

end Sys2Proof

/-! The obligations on the step, the reset and the invariants. -/

section
open Sys2Proof Sys2Proof.Machine

/-- Settles O27: of the registers that a command writes only `RING` and `PLUG` can break an invariant; SETROT writes a
legal ring setting and ADDPLUG joins two letters that stand for themselves. -/
theorem everyStepKeepsTheInvariants : Obligations.EveryStepKeepsTheInvariants :=
  fun _ _ => step_inv

/-- Settles O29, by induction on the number of steps. -/
theorem everyRunIsSafe : Obligations.EveryRunIsSafe :=
  safeRun

/-- Settles O31, by induction on the sequence. -/
theorem runIsTheFoldOfExec : Obligations.RunIsTheFoldOfExec :=
  run_commands

/-- Settles O5. -/
theorem stepRunsTheDecodedCommand : Obligations.StepRunsTheDecodedCommand :=
  fun _ _ _ _ => step_of_decode_ok

/-- Settles O6: the placed word is at the head of the queue, and taking it gives the state back. -/
theorem placedWordRunsNext : Obligations.PlacedWordRunsNext :=
  fun s w _ h => step_of_decode_ok (presentWord_inbox s (BitVec.ofNat CMD_WIDTH (w % 2 ^ 32))) (decode_of_decodeTableWord h)

/-- Settles O8. -/
theorem resetEventRestoresDefaultWithoutResponse : Obligations.ResetEventRestoresDefaultWithoutResponse :=
  fun _ _ _ => step_of_reset

/-- Settles O9. -/
theorem waitingChangesNothing : Obligations.WaitingChangesNothing :=
  fun _ => step_of_inbox_empty

/-- Settles O25: the registers are those of the default configuration, and nothing is presented or answered. -/
theorem resetHoldsTheDefaultConfiguration : Obligations.ResetHoldsTheDefaultConfiguration := by
  unfold Obligations.ResetHoldsTheDefaultConfiguration
  decide

/-- Settles O26. -/
theorem invHoldsAtReset : Obligations.InvHoldsAtReset :=
  default_hw_inv

/-- Settles O28. -/
theorem hardwareTablesAreSound : Obligations.HardwareTablesAreSound :=
  tablesOk_hw

/-- Settles O30. -/
theorem stepComputesExec : Obligations.StepComputesExec :=
  fun _ _ _ _ => step_of_command rfl

end

/-! The laws of `Shift`, the rotor formulas they give, and the pipeline as an involution. -/

namespace Sys2Proof.Machine

/-- `mod26 n` is the one letter that differs from `n` by a multiple of 26 (00_scope.md R8). -/
theorem mod26_eq_iff_dvd (n : Int) (m : Letter) : mod26 n = m ↔ (26 : Int) ∣ n - m := by
  rw [← mod26_letter m, mod26_eq_iff, mod26_letter, Int.dvd_iff_emod_eq_zero]
  omega

section Shift

variable (T : Table)

theorem shift_zero : shift T 0 = T := by
  refine vector_ext fun j => ?_
  rw [shift_get, sub_zero, add_zero, mod26_letter, mod26_letter]

theorem shift_mod26 (k : Int) : shift T k = shift T (mod26 k : Letter) := by
  refine shift_congr T ?_
  rw [mod26_val, Int.emod_emod]

/-- A shift backwards, as a rotation of the rotor by `k` letters makes it (40_datapath.md R86). -/
theorem shift_neg_get (k : Int) (j : Letter) :
    (shift T (-k)).entry j = mod26 ((T.entry (mod26 ((j : Int) + k)) : Int) - k) := by
  rw [shift_get, sub_neg_eq_add, ← sub_eq_add_neg]

/-- The shift of ring setting `r` and offset `o` (40_datapath.md R85). -/
theorem shift_ring_offset_get (r o : Int) (j : Letter) :
    (shift T (r - 1 - o)).entry j = mod26 ((T.entry (mod26 ((j : Int) + o - r + 1)) : Int) - o + r - 1) := by
  have hindex : (j : Int) - (r - 1 - o) = j + o - r + 1 := by ring
  have hvalue : ∀ v : Int, v + (r - 1 - o) = v - o + r - 1 := fun v => by ring
  rw [shift_get, hindex, hvalue]

variable {T}

/-- What undoes a table undoes its shift once shifted alike. -/
theorem shift_undoes {U : Table} (h : ∀ i : Letter, U.entry (T.entry i) = i) (k : Int) (i : Letter) :
    (shift U k).entry ((shift T k).entry i) = i := by
  rw [shift_get T, shift_get_mod26_add, h, mod26_add_mod26, sub_add_cancel, mod26_letter]

theorem inverse_shift (hT : Perm T) (k : Int) : inverse (shift T k) = shift (inverse T) k :=
  (eq_inverse_of_undoes (shift_perm hT k) (shift_undoes (inverse_get_of_perm hT) k)).symm

/-- A letter that the shifted table fixes is, shifted back, one that the table fixes. -/
theorem shift_noFixedPoint (hT : NoFixedPoint T) (k : Int) : NoFixedPoint (shift T k) := by
  intro j hj
  rw [shift_get, mod26_eq_iff_dvd] at hj
  refine hT (mod26 ((j : Int) - k)) ?_
  rw [eq_comm, mod26_eq_iff_dvd]
  omega

end Shift

section CurrentTable

variable (c : Config) (a : Arch) (s : Slot)

/-- Ring and offset act through their difference (40_datapath.md R85). -/
theorem cur_eq_shift_wiring : cur c a s =
    shift (c.wiring.entry (a.ID.entry s)) ((a.RING.entry s : Int) - 1 - (a.OFF.entry s : Int)) :=
  shift_shift ..

variable {c} (hc : TablesOk c)
include hc

theorem inverse_cur_eq_shift_eff : inverse (cur c a s) =
    shift (inverse (eff c (a.ID.entry s) (a.RING.entry s))) (-(a.OFF.entry s : Int)) :=
  inverse_shift (shift_perm (hc.1 _) _) _

theorem inverse_cur_eq_shift_wiring : inverse (cur c a s) =
    shift (inverse (c.wiring.entry (a.ID.entry s))) ((a.RING.entry s : Int) - 1 - (a.OFF.entry s : Int)) := by
  rw [cur_eq_shift_wiring, inverse_shift (hc.1 _)]

theorem bankInv_bankFwd (x : Letter) : bankInv c a (bankFwd c a x) = x := by
  rw [bankFwd, bankInv, rotInv_rotFwd hc, rotInv_rotFwd hc, rotInv_rotFwd hc]

theorem bankFwd_bankInv (y : Letter) : bankFwd c a (bankInv c a y) = y := by
  rw [bankFwd, bankInv, rotFwd_rotInv hc, rotFwd_rotInv hc, rotFwd_rotInv hc]

end CurrentTable

theorem plug_plug {a : Arch} (ha : a.Inv) (x : Letter) : plug a (plug a x) = x :=
  (inv_iff.1 ha).2 x

/-- The reflector between the bank and its inverse, between the plugboard and itself. -/
theorem pipeline_eq_conjugate (c : Config) (a : Arch) (x : Letter) :
    pipeline c a x = plug a (bankInv c a (reflect c a (bankFwd c a (plug a x)))) := rfl

section SoundState

variable {c : Config} (hc : TablesOk c) {a : Arch} (ha : a.Inv)
include hc ha

/-- A conjugate of the reflector is an involution as it is (40_datapath.md R94 b). -/
theorem pipeline_pipeline (x : Letter) : pipeline c a (pipeline c a x) = x := by
  rw [pipeline_eq_conjugate c a x, pipeline_eq_conjugate, plug_plug ha, bankFwd_bankInv a hc, reflect_reflect hc,
    bankInv_bankFwd a hc, plug_plug ha]

/-- A letter that the pipeline fixed would, behind plugboard and bank, be one that the reflector fixes
(40_datapath.md R94 c). -/
theorem pipeline_ne (x : Letter) : pipeline c a x ≠ x := by
  intro h
  have hplug := congrArg (plug a) h
  rw [pipeline_eq_conjugate, plug_plug ha] at hplug
  have hbank := congrArg (bankFwd c a) hplug
  rw [bankFwd_bankInv a hc] at hbank
  exact reflect_ne hc a _ hbank

end SoundState

end Sys2Proof.Machine

/-! The obligations on the datapath. -/

section
open Sys2Proof Sys2Proof.Machine

/-- Settles O36: shifts add modulo 26, what undoes a table undoes its shift, and a fixed letter shifts back to one. -/
theorem shiftLaws : Obligations.ShiftLaws := by
  intro T k l
  refine ⟨shift_zero T, shift_shift T k l, shift_mod26 T k, fun hT => ⟨shift_perm hT k, inverse_shift hT k⟩, ?_⟩
  rintro ⟨hself, hfree⟩
  exact ⟨shift_undoes hself k, shift_noFixedPoint hfree k⟩

/-- Settles O37: the two shifts of the current table add. -/
theorem currentTableIsOneShift : Obligations.CurrentTableIsOneShift :=
  fun c a s => ⟨rfl, cur_eq_shift_wiring c a s⟩

/-- Settles O38: each formula is an entry of the current table, or of its inverse, as one shift of the effective table
or of the wiring. -/
theorem rotorEncodeFormulas : Obligations.RotorEncodeFormulas := by
  intro a s x
  refine ⟨rfl, shift_neg_get _ _ x, ?_, rfl, ?_, ?_⟩
  · rw [rotFwd, cur_eq_shift_wiring, shift_ring_offset_get]
  · rw [rotInv, inverse_cur_eq_shift_eff a s tablesOk_hw, shift_neg_get]
  · rw [rotInv, inverse_cur_eq_shift_wiring a s tablesOk_hw, shift_ring_offset_get]

/-- Settles O40: the rotor that a letter passed last is the first to be undone. -/
theorem bankInverseUndoesForward : Obligations.BankInverseUndoesForward :=
  fun a x => ⟨rfl, rfl, bankInv_bankFwd a tablesOk_hw x⟩

/-- Settles O44: the pipeline is the reflector conjugated by plugboard and bank. -/
theorem pipelineIsAFixedPointFreeInvolution : Obligations.PipelineIsAFixedPointFreeInvolution := by
  intro c a hc ha
  have hinvolutive : Function.Involutive (pipeline c a) := pipeline_pipeline hc ha
  exact ⟨hinvolutive.bijective, hinvolutive, pipeline_ne hc ha⟩

/-- Settles O33. -/
theorem mod26IsTheUniqueResidue : Obligations.Mod26IsTheUniqueResidue :=
  ⟨mod26_eq_iff_dvd, rfl, rfl, rfl⟩

/-- Settles O42. -/
theorem plugIsItsOwnInverse : Obligations.PlugIsItsOwnInverse :=
  fun _ x => ⟨rfl, fun ha => plug_plug ha x⟩

end

/-! What the commands share: the response of a command that has ended, which registers each leaves, which pairs of
commands do not interact, and the count of plug pairs. -/

namespace Sys2Proof.Machine

/-- The response that a command has appended is that of its reply. -/
theorem exec_rsp {i : Instr} {s t : State} {rsp : Response} (h : exec i s = .next t)
    (hout : t.outbox = s.outbox ++ [rsp]) : rsp = (instrReply i s.arch).rsp := by
  obtain ⟨-, -, hreply⟩ := exec_next h
  simpa using hout.symm.trans hreply

theorem arch_eq {a b : Arch} (hID : a.ID = b.ID) (hRING : a.RING = b.RING) (hOFF : a.OFF = b.OFF)
    (hREF : a.REF = b.REF) (hPLUG : a.PLUG = b.PLUG) : a = b := by
  cases a
  cases b
  congr

section Frames

variable (a : Arch)

/-- SETROT leaves `REF` and `PLUG`. -/
theorem setrotReply_frame (pos rid ring start : Nat) :
    (setrotReply pos rid ring start a).arch.REF = a.REF ∧ (setrotReply pos rid ring start a).arch.PLUG = a.PLUG := by
  obtain ⟨st, -, hr⟩ | ⟨p, r, n, x, -, -, -, -, -, hr⟩ := setrotReply_cases pos rid ring start
  all_goals
    rw [hr]
    exact ⟨rfl, rfl⟩

/-- SETREF leaves every register but `REF`. -/
theorem setrefReply_frame (ref : Nat) :
    (setrefReply ref a).arch.ID = a.ID ∧ (setrefReply ref a).arch.RING = a.RING ∧
      (setrefReply ref a).arch.OFF = a.OFF ∧ (setrefReply ref a).arch.PLUG = a.PLUG := by
  obtain hr | ⟨f, -, hr⟩ := setrefReply_cases ref
  all_goals
    rw [hr]
    exact ⟨rfl, rfl, rfl, rfl⟩

/-- ADDPLUG leaves every register but `PLUG`. -/
theorem addplugReply_frame (l r : Nat) :
    (addplugReply l r a).arch.ID = a.ID ∧ (addplugReply l r a).arch.RING = a.RING ∧
      (addplugReply l r a).arch.OFF = a.OFF ∧ (addplugReply l r a).arch.REF = a.REF := by
  obtain ⟨st, -, hr⟩ | ⟨x, y, -, -, -, -, -, hr⟩ := addplugReply_cases l r a
  all_goals
    rw [hr]
    exact ⟨rfl, rfl, rfl, rfl⟩

end Frames

/-- Each register's writers (10_state.md section 7). -/
theorem instrReply_writers (i : Instr) (a : Arch) :
    ((instrReply i a).arch.ID ≠ a.ID → i = .init ∨ ∃ pos rid ring start, i = .setrot pos rid ring start) ∧
    ((instrReply i a).arch.RING ≠ a.RING → i = .init ∨ ∃ pos rid ring start, i = .setrot pos rid ring start) ∧
    ((instrReply i a).arch.OFF ≠ a.OFF → i = .init ∨ (∃ pos rid ring start, i = .setrot pos rid ring start) ∨
      i = .step ∨ ∃ x : Letter, i = .key x) ∧
    ((instrReply i a).arch.REF ≠ a.REF → i = .init ∨ ∃ ref, i = .setref ref) ∧
    ((instrReply i a).arch.PLUG ≠ a.PLUG → i = .init ∨ ∃ l r, i = .addplug l r) := by
  cases i with
  | init => simp
  | setrot pos rid ring start =>
    obtain ⟨hREF, hPLUG⟩ := setrotReply_frame a pos rid ring start
    simp [instrReply, hREF, hPLUG]
  | setref ref =>
    obtain ⟨hID, hRING, hOFF, hPLUG⟩ := setrefReply_frame a ref
    simp [instrReply, hID, hRING, hOFF, hPLUG]
  | addplug l r =>
    obtain ⟨hID, hRING, hOFF, hREF⟩ := addplugReply_frame a l r
    simp [instrReply, hID, hRING, hOFF, hREF]
  | key n =>
    obtain ⟨-, hr⟩ | ⟨x, rfl, hr⟩ := keyReply_cases hw n a
    · simp [instrReply, hr, respond]
    · refine ⟨?_, ?_, fun _ => .inr (.inr (.inr ⟨x, rfl⟩)), ?_, ?_⟩ <;> simp [instrReply, hr, respond]
  | step => simp [instrReply, stepReply, respond]
  | rdwin => simp [instrReply, rdwinReply, respond]

/-- The response of a command other than KEY and ADDPLUG reads at most `OFF`, and only RDWIN's reads that
(10_state.md section 7). -/
theorem instrReply_rsp_congr {i : Instr} {a b : Arch} (hkey : ∀ x, i ≠ .key x) (hplug : ∀ l r, i ≠ .addplug l r)
    (h : a.OFF = b.OFF ∨ i ≠ .rdwin) : (instrReply i a).rsp = (instrReply i b).rsp := by
  cases i with
  | init => rfl
  | setrot pos rid ring start =>
    change (setrotReply pos rid ring start a).rsp = (setrotReply pos rid ring start b).rsp
    obtain ⟨st, -, hr⟩ | ⟨p, r, n, x, -, -, -, -, -, hr⟩ := setrotReply_cases pos rid ring start
    all_goals
      rw [hr, hr]
      rfl
  | setref ref =>
    change (setrefReply ref a).rsp = (setrefReply ref b).rsp
    obtain hr | ⟨f, -, hr⟩ := setrefReply_cases ref
    all_goals
      rw [hr, hr]
      rfl
  | addplug l r => exact absurd rfl (hplug l r)
  | key x => exact absurd rfl (hkey x)
  | step => rfl
  | rdwin =>
    obtain hoff | hne := h
    · simp only [instrReply, rdwinReply, respond, window, hoff]
    · exact absurd rfl hne

section Interaction

/-- Either order of the two commands leaves the same registers, and each command gives the response it gives alone
(70_reset_and_hazards.md R163). -/
def NonInteracting (i j : Instr) (a : Arch) : Prop :=
  (instrReply j (instrReply i a).arch).arch = (instrReply i (instrReply j a).arch).arch ∧
  (instrReply j (instrReply i a).arch).rsp = (instrReply j a).rsp ∧
  (instrReply i (instrReply j a).arch).rsp = (instrReply i a).rsp

/-- A command that makes one write `f` whatever the state does not interact with one whose reply commutes with `f`. -/
theorem nonInteracting_of_write {i j : Instr} {st : Status} {f : Arch → Arch}
    (hi : ∀ a, instrReply i a = respond st 0 (f a))
    (hj : ∀ a, instrReply j (f a) = ⟨f (instrReply j a).arch, (instrReply j a).rsp⟩) (a : Arch) :
    NonInteracting i j a := by
  simp only [NonInteracting, hi, respond, hj, and_self]

/-- The write of an accepted SETROT (42_config_commands.md R111). -/
def writeSlot (p : Slot) (r : RotorId) (n : RingSetting) (x : Letter) (a : Arch) : Arch :=
  ((a.setID p r).setRING p n).setOFF p x

theorem writeSlot_comm {p q : Slot} (hpq : p ≠ q) (r r' : RotorId) (n n' : RingSetting) (x x' : Letter) (a : Arch) :
    writeSlot q r' n' x' (writeSlot p r n x a) = writeSlot p r n x (writeSlot q r' n' x' a) := by
  have hentries {α : Type} (v : Vector α 3) (y y' : α) : (v.set p y).set q y' = (v.set q y').set p y :=
    Vector.set_comm _ _ (Fin.val_ne_of_ne hpq)
  exact arch_eq (hentries ..) (hentries ..) (hentries ..) rfl rfl

/-- SETROT makes one write, of its slot or none, whatever the state. -/
theorem instrReply_setrot_write (pos rid ring start : Nat) : ∃ st f,
    (∀ a, instrReply (.setrot pos rid ring start) a = respond st 0 (f a)) ∧
    (f = id ∨ ∃ (p : Slot) (r : RotorId) (n : RingSetting) (x : Letter), pos = p ∧ f = writeSlot p r n x) := by
  obtain ⟨st, -, hr⟩ | ⟨p, r, n, x, hp, -, -, -, -, hr⟩ := setrotReply_cases pos rid ring start
  · exact ⟨st, id, hr, .inl rfl⟩
  · exact ⟨.ok, writeSlot p r n x, hr, .inr ⟨p, r, n, x, hp, rfl⟩⟩

/-- SETREF makes one write, of `REF` or none, whatever the state. -/
theorem instrReply_setref_write (ref : Nat) : ∃ st f,
    (∀ a, instrReply (.setref ref) a = respond st 0 (f a)) ∧ (f = id ∨ ∃ g : ReflId, f = (Arch.setREF · g)) := by
  obtain hr | ⟨g, -, hr⟩ := setrefReply_cases ref
  · exact ⟨.unknownReflector, id, hr, .inl rfl⟩
  · exact ⟨.ok, (Arch.setREF · g), hr, .inr ⟨g, rfl⟩⟩

/-- ADDPLUG reads and writes `PLUG` only, so that it commutes with a write of other registers. -/
theorem instrReply_addplug_write {f : Arch → Arch} (hread : ∀ a, (f a).PLUG = a.PLUG)
    (hwrite : ∀ a i x, (f a).setPLUG i x = f (a.setPLUG i x)) (l r : Nat) (a : Arch) :
    instrReply (.addplug l r) (f a) = ⟨f (instrReply (.addplug l r) a).arch, (instrReply (.addplug l r) a).rsp⟩ := by
  simp only [instrReply, addplugReply, hread, hwrite]
  cases letterOperand l with
  | none => rfl
  | some x =>
    cases letterOperand r with
    | none => rfl
    | some y => dsimp only; split_ifs <;> rfl

theorem nonInteracting_setrot_setref (pos rid ring start ref : Nat) (a : Arch) :
    NonInteracting (.setrot pos rid ring start) (.setref ref) a := by
  obtain ⟨st, f, hi, hf⟩ := instrReply_setrot_write pos rid ring start
  obtain ⟨st', g, hj, hg⟩ := instrReply_setref_write ref
  refine nonInteracting_of_write hi (fun a => ?_) a
  obtain rfl | ⟨p, r, n, x, -, rfl⟩ := hf
  · rfl
  · obtain rfl | ⟨g, rfl⟩ := hg <;> rw [hj, hj] <;> rfl

theorem nonInteracting_setrot_addplug (pos rid ring start l r : Nat) (a : Arch) :
    NonInteracting (.setrot pos rid ring start) (.addplug l r) a := by
  obtain ⟨st, f, hi, hf⟩ := instrReply_setrot_write pos rid ring start
  refine nonInteracting_of_write hi (instrReply_addplug_write ?_ ?_ l r) a
  all_goals obtain rfl | ⟨p, r, n, x, -, rfl⟩ := hf <;> intros <;> rfl

theorem nonInteracting_setref_addplug (ref l r : Nat) (a : Arch) :
    NonInteracting (.setref ref) (.addplug l r) a := by
  obtain ⟨st, f, hi, hf⟩ := instrReply_setref_write ref
  refine nonInteracting_of_write hi (instrReply_addplug_write ?_ ?_ l r) a
  all_goals obtain rfl | ⟨g, rfl⟩ := hf <;> intros <;> rfl

theorem nonInteracting_setrot_setrot {pos pos' : Nat} (hpos : pos ≠ pos') (rid ring start rid' ring' start' : Nat)
    (a : Arch) : NonInteracting (.setrot pos rid ring start) (.setrot pos' rid' ring' start') a := by
  obtain ⟨st, f, hi, hf⟩ := instrReply_setrot_write pos rid ring start
  obtain ⟨st', g, hj, hg⟩ := instrReply_setrot_write pos' rid' ring' start'
  refine nonInteracting_of_write hi (fun a => ?_) a
  rw [hj, hj]
  obtain rfl | ⟨p, r, n, x, rfl, rfl⟩ := hf
  · rfl
  · obtain rfl | ⟨q, r', n', x', rfl, rfl⟩ := hg
    · rfl
    · exact congrArg (respond st' 0) (writeSlot_comm (fun h => hpos (congrArg Fin.val h)) ..)

/-- With no letter in common, each ADDPLUG finds and leaves its own entries as if alone. -/
theorem nonInteracting_addplug_addplug {l r l' r' : Nat} (h : l ≠ l' ∧ l ≠ r' ∧ r ≠ l' ∧ r ≠ r') (a : Arch) :
    NonInteracting (.addplug l r) (.addplug l' r') a := by
  obtain ⟨-, -, hkept⟩ := addplugReply_local l r (a := a) (b := a) fun _ _ => rfl
  obtain ⟨-, -, hkept'⟩ := addplugReply_local l' r' (a := a) (b := a) fun _ _ => rfl
  obtain ⟨hrsp, hown, hother⟩ := addplugReply_local l r (a := (addplugReply l' r' a).arch) (b := a)
    fun i hi => hkept' i (by omega) (by omega)
  obtain ⟨hrsp', hown', hother'⟩ := addplugReply_local l' r' (a := (addplugReply l r a).arch) (b := a)
    fun i hi => hkept i (by omega) (by omega)
  obtain ⟨hID, hRING, hOFF, hREF⟩ := addplugReply_frame a l r
  obtain ⟨hID', hRING', hOFF', hREF'⟩ := addplugReply_frame a l' r'
  obtain ⟨hID₂, hRING₂, hOFF₂, hREF₂⟩ := addplugReply_frame (addplugReply l' r' a).arch l r
  obtain ⟨hID₂', hRING₂', hOFF₂', hREF₂'⟩ := addplugReply_frame (addplugReply l r a).arch l' r'
  refine ⟨arch_eq (by simp only [instrReply, *]) (by simp only [instrReply, *]) (by simp only [instrReply, *])
    (by simp only [instrReply, *]) (vector_ext fun i => ?_), hrsp', hrsp⟩
  simp only [instrReply]
  by_cases hi : i.val = l ∨ i.val = r
  · rw [hown i hi, hother' i (by omega) (by omega)]
  · rw [hother i (by omega) (by omega)]
    by_cases hi' : i.val = l' ∨ i.val = r'
    · rw [hown' i hi']
    · rw [hother' i (by omega) (by omega), hkept i (by omega) (by omega), hkept' i (by omega) (by omega)]

end Interaction

section Status

theorem status_of_raise {i : Instr} {a : Arch} {st : Status} (h : instrReply i a = raise st a) :
    field (instrReply i a).rsp 31 24 = st.code.toNat := by
  rw [h]
  exact response_status st 0

theorem status_of_ok {i : Instr} {a b : Arch} {d : BitVec 24} (h : instrReply i a = respond .ok d b) :
    field (instrReply i a).rsp 31 24 = 0 := by
  rw [h]
  exact response_status .ok d

/-- A status other than OK is an error raised. -/
theorem raise_of_status_ne_ok {i : Instr} {a : Arch} (h : field (instrReply i a).rsp 31 24 ≠ 0) :
    ∃ st, instrReply i a = raise st a := by
  obtain ⟨st, -, hr⟩ | ⟨d, b, hr, -⟩ := instrReply_cases i a
  · exact ⟨st, hr⟩
  · exact absurd (status_of_ok hr) h

/-- SETROT's statuses, each from the operand it names. -/
theorem setrot_status (pos rid ring start : Nat) (a : Arch) :
    field (instrReply (.setrot pos rid ring start) a).rsp 31 24 = 0 ∨
    (field (instrReply (.setrot pos rid ring start) a).rsp 31 24 = 1 ∧ 7 < rid) ∨
    (field (instrReply (.setrot pos rid ring start) a).rsp 31 24 = 2 ∧ 2 < pos) ∨
    (field (instrReply (.setrot pos rid ring start) a).rsp 31 24 = 3 ∧ (ring = 0 ∨ 26 < ring)) ∨
    (field (instrReply (.setrot pos rid ring start) a).rsp 31 24 = 4 ∧ 25 < start) := by
  by_cases hrid : 7 < rid
  · exact .inr (.inl ⟨status_of_raise (instrReply_setrot_of_not_rotor a hrid pos ring start), hrid⟩)
  lift rid to RotorId using (by omega) with r
  by_cases hpos : 2 < pos
  · exact .inr (.inr (.inl ⟨status_of_raise (instrReply_setrot_of_not_slot a r hpos ring start), hpos⟩))
  lift pos to Slot using (by omega) with p
  by_cases hring : ring = 0 ∨ 26 < ring
  · exact .inr (.inr (.inr (.inl
      ⟨status_of_raise (instrReply_setrot_of_not_ring a r p (by omega) start), hring⟩)))
  lift ring to RingSetting using (by omega) with n
  have hn : 1 ≤ n.val := by omega
  by_cases hstart : 25 < start
  · exact .inr (.inr (.inr (.inr
      ⟨status_of_raise (instrReply_setrot_of_not_letter a r p hn hstart), hstart⟩)))
  lift start to Letter using (by omega) with x
  exact .inl (status_of_ok (instrReply_setrot_of_legal a r p hn x))

theorem setref_status (ref : Nat) (a : Arch) :
    field (instrReply (.setref ref) a).rsp 31 24 = 0 ∨
    (field (instrReply (.setref ref) a).rsp 31 24 = 5 ∧ 1 < ref) := by
  by_cases href : 1 < ref
  · exact .inr ⟨status_of_raise (instrReply_setref_of_not_refl a href), href⟩
  lift ref to ReflId using (by omega) with f
  exact .inl (status_of_ok (instrReply_setref_of_refl a f))

/-- ADDPLUG's two errors: no pair of letters, or a letter of it already paired. -/
theorem addplug_status (l r : Nat) (a : Arch) :
    field (instrReply (.addplug l r) a).rsp 31 24 = 0 ∨
    (field (instrReply (.addplug l r) a).rsp 31 24 = 6 ∧ (25 < l ∨ 25 < r ∨ l = r)) ∨
    (field (instrReply (.addplug l r) a).rsp 31 24 = 7 ∧ ∃ x y : Letter, l = x ∧ r = y ∧ x ≠ y ∧
      (a.PLUG.entry x ≠ x ∨ a.PLUG.entry y ≠ y)) := by
  by_cases hpair : 25 < l ∨ 25 < r ∨ l = r
  · exact .inr (.inl ⟨status_of_raise (instrReply_addplug_of_not_pair a hpair), hpair⟩)
  lift l to Letter using (by omega) with x
  lift r to Letter using (by omega) with y
  have hxy : x ≠ y := fun h => hpair (.inr (.inr (congrArg Fin.val h)))
  by_cases hpaired : a.PLUG.entry x ≠ x ∨ a.PLUG.entry y ≠ y
  · exact .inr (.inr ⟨status_of_raise (instrReply_addplug_of_paired hxy hpaired), x, y, rfl, rfl, hxy, hpaired⟩)
  exact .inl (status_of_ok (instrReply_addplug_of_unpaired hxy (by tauto) (by tauto)))

theorem key_status (n : Nat) (a : Arch) :
    field (instrReply (.key n) a).rsp 31 24 = 0 ∨ (field (instrReply (.key n) a).rsp 31 24 = 9 ∧ 25 < n) := by
  by_cases hn : 25 < n
  · exact .inr ⟨status_of_raise (instrReply_key_of_not_letter hn a), hn⟩
  lift n to Letter using (by omega) with x
  exact .inl (status_of_ok (instrReply_key_of_letter x a))

end Status

section PairCount

/-- The letters that the plugboard moves. -/
def movedLetters (a : Arch) : Finset Letter := {i | a.PLUG.entry i ≠ i}

theorem mem_movedLetters (a : Arch) (i : Letter) : i ∈ movedLetters a ↔ a.PLUG.entry i ≠ i := by
  simp [movedLetters]

theorem pairCount_eq (a : Arch) : pairCount a = (movedLetters a).card / 2 := by
  have hcount : (List.finRange 26).countP (fun i => a.PLUG.entry i != i) = (movedLetters a).card := by
    rw [List.countP_eq_length_filter, ← List.toFinset_card_of_nodup ((List.nodup_finRange 26).filter _)]
    congr 1
    ext i
    simp [movedLetters]
  rw [pairCount, hcount]

theorem card_movedLetters_le (a : Arch) : (movedLetters a).card ≤ 26 :=
  Finset.card_le_univ _

theorem pairCount_le (a : Arch) : pairCount a ≤ MAXPLUGS := by
  rw [pairCount_eq]
  exact Nat.div_le_div_right (card_movedLetters_le a)

/-- With 13 pairs all 26 letters are moved. -/
theorem moved_of_pairCount_eq_max {a : Arch} (h : pairCount a = MAXPLUGS) (x : Letter) : a.PLUG.entry x ≠ x := by
  have hle := card_movedLetters_le a
  rw [pairCount_eq, MAXPLUGS] at h
  have huniv : movedLetters a = Finset.univ := Finset.card_eq_iff_eq_univ _ |>.1 (by simp only [Fintype.card_fin]; omega)
  rw [← mem_movedLetters, huniv]
  exact Finset.mem_univ x

/-- Joining two letters that stood for themselves moves exactly those two more. -/
theorem pairCount_setPLUG_pair {a : Arch} {x y : Letter} (hxy : x ≠ y) (hx : a.PLUG.entry x = x)
    (hy : a.PLUG.entry y = y) : pairCount ((a.setPLUG x y).setPLUG y x) = pairCount a + 1 := by
  have hmoved : movedLetters ((a.setPLUG x y).setPLUG y x) = insert x (insert y (movedLetters a)) := by
    ext i
    simp only [Finset.mem_insert, mem_movedLetters, setPLUG_PLUG_get]
    by_cases hiy : i = y
    · simp [hiy, hxy]
    by_cases hix : i = x
    · simp [hix, hxy, hxy.symm]
    simp [hix, hiy]
  have hxnot : x ∉ insert y (movedLetters a) := by simp [mem_movedLetters, hxy, hx]
  have hynot : y ∉ movedLetters a := by simp [mem_movedLetters, hy]
  rw [pairCount_eq, pairCount_eq, hmoved, Finset.card_insert_of_notMem hxnot, Finset.card_insert_of_notMem hynot]
  omega

end PairCount

end Sys2Proof.Machine

/-! The obligations over all commands. -/

section
open Sys2Proof Sys2Proof.Machine

/-- Settles O20, command by command: INIT, STEP and RDWIN are always OK, and each of the others has its own errors. -/
theorem statusesComeFromTheirCommands : Obligations.StatusesComeFromTheirCommands := by
  intro i s t rsp hexec hout
  obtain rfl := exec_rsp hexec hout
  cases i with
  | init => exact .inl (response_status .ok 0)
  | step => exact .inl (response_status .ok 0)
  | rdwin => exact .inl (response_status .ok _)
  | setrot pos rid ring start =>
    obtain h | ⟨h, hrid⟩ | ⟨h, hpos⟩ | ⟨h, hring⟩ | ⟨h, hstart⟩ := setrot_status pos rid ring start s.arch
    · exact .inl h
    · exact .inr (.inl ⟨h, pos, rid, ring, start, rfl, hrid⟩)
    · exact .inr (.inr (.inl ⟨h, pos, rid, ring, start, rfl, hpos⟩))
    · exact .inr (.inr (.inr (.inl ⟨h, pos, rid, ring, start, rfl, hring⟩)))
    · exact .inr (.inr (.inr (.inr (.inl ⟨h, pos, rid, ring, start, rfl, hstart⟩))))
  | setref ref =>
    obtain h | ⟨h, href⟩ := setref_status ref s.arch
    · exact .inl h
    · exact .inr (.inr (.inr (.inr (.inr (.inl ⟨h, ref, rfl, href⟩)))))
  | addplug l r =>
    obtain h | ⟨h, hpair⟩ | ⟨h, x, y, rfl, rfl, hpaired⟩ := addplug_status l r s.arch
    · exact .inl h
    · exact .inr (.inr (.inr (.inr (.inr (.inr (.inl ⟨h, l, r, rfl, hpair⟩))))))
    · exact .inr (.inr (.inr (.inr (.inr (.inr (.inr (.inl ⟨h, x, y, rfl, hpaired⟩)))))))
  | key n =>
    obtain h | ⟨h, hn⟩ := key_status n s.arch
    · exact .inl h
    · exact .inr (.inr (.inr (.inr (.inr (.inr (.inr (.inr ⟨h, n, rfl, hn⟩)))))))

/-- Settles O21: a command that fails leaves the registers, so that it meets them again and raises the same error. -/
theorem failedCommandFailsAgain : Obligations.FailedCommandFailsAgain := by
  intro i s t rsp hexec hout hstatus
  obtain rfl := exec_rsp hexec hout
  obtain ⟨st, hr⟩ := raise_of_status_ne_ok hstatus
  have harch : t.arch = s.arch := (exec_next hexec).1.trans (congrArg Reply.arch hr)
  rw [hr]
  rw [← harch] at hr
  exact exec_of_raise hr

/-- Settles O22. -/
theorem registersHaveOnlyTheirWriters : Obligations.RegistersHaveOnlyTheirWriters := by
  intro i s t hexec
  obtain ⟨harch, -, -⟩ := exec_next hexec
  rw [harch]
  exact instrReply_writers i s.arch

/-- Settles O23: whether SETROT or SETREF fails does not depend on the registers, and RDWIN reads `OFF`. -/
theorem responsesRevealOnlyTheWindows : Obligations.ResponsesRevealOnlyTheWindows := by
  intro i s s' t t' rsp rsp' hexec hexec' hout hout' hkey hplug h
  rw [exec_rsp hexec hout, exec_rsp hexec' hout']
  exact instrReply_rsp_congr hkey hplug h

/-- Settles O24: the commands of each pair read and write different registers or different entries. -/
theorem configurationCommandsCommute : Obligations.ConfigurationCommandsCommute := by
  rintro a i j (⟨⟨p, r, n, x, rfl⟩, ⟨f, rfl⟩ | ⟨l, r', rfl⟩⟩ | ⟨⟨f, rfl⟩, l, r, rfl⟩ |
    ⟨p, r, n, x, p', r', n', x', rfl, rfl, hp⟩ | ⟨l, r, l', r', rfl, rfl, h⟩)
  · exact nonInteracting_setrot_setref p r n x f a
  · exact nonInteracting_setrot_addplug p r n x l r' a
  · exact nonInteracting_setref_addplug f l r a
  · exact nonInteracting_setrot_setrot hp r n x r' n' x' a
  · exact nonInteracting_addplug_addplug h a

/-- Settles O32: `PLUG` moves two letters for each pair; a full board moves all 26, and an accepted pair moves two more. -/
theorem plugboardHoldsThirteenPairs : Obligations.PlugboardHoldsThirteenPairs := by
  refine ⟨pairCount_le, fun s x y hxy hfull => ?_, fun s t l r hexec hout => ?_⟩
  · exact exec_of_raise (instrReply_addplug_of_paired hxy (.inl (moved_of_pairCount_eq_max hfull x)))
  · have hrsp := exec_rsp hexec hout
    rw [(exec_next hexec).1]
    change pairCount (addplugReply l r s.arch).arch = _
    change _ = (addplugReply l r s.arch).rsp at hrsp
    obtain ⟨st, hst, hr⟩ | ⟨x, y, -, -, hxy, hx, hy, hr⟩ := addplugReply_cases l r s.arch
    · replace hrsp : 0x00000000#32 = response st 0 := hrsp.trans (congrArg Reply.rsp hr)
      obtain rfl | rfl := hst <;> exact absurd hrsp (by decide)
    · rw [hr]
      exact pairCount_setPLUG_pair hxy hx hy

end

/-! Keypresses: what KEY with a letter and STEP make of the bank, the double step, and messages letter by letter. -/

namespace Sys2Proof.Machine

theorem exec_key (x : Letter) (s : State) : exec (.key x) s = .next ⟨stepBank hw s.arch, s.inbox,
    s.outbox ++ [BitVec.ofNat 32 (pipeline hw (stepBank hw s.arch) x)]⟩ := by
  rw [exec_eq_complete, complete_eq, instrReply_key_of_letter, respond, response_ok_letter]

/-- A keypress, be it KEY with a letter or STEP, steps the bank. -/
theorem exec_keypress {i : Instr} (h : i = .step ∨ ∃ x : Letter, i = .key x) (s : State) :
    ∃ t, exec i s = .next t ∧ t.arch = stepBank hw s.arch := by
  obtain rfl | ⟨x, rfl⟩ := h
  · exact ⟨_, exec_step s, rfl⟩
  · exact ⟨_, exec_key x s, rfl⟩

/-- Of the registers, stepping reads the offsets and the middle and right rotors (41_stepping.md R103). -/
theorem stepBank_OFF_congr {c : Config} {a b : Arch} (hoff : a.OFF = b.OFF) (hmiddle : a.ID.entry 1 = b.ID.entry 1)
    (hright : a.ID.entry 2 = b.ID.entry 2) : (stepBank c a).OFF = (stepBank c b).OFF := by
  obtain ⟨left, middle, right⟩ := stepBank_offsetsStepped c a
  obtain ⟨left', middle', right'⟩ := stepBank_offsetsStepped c b
  rw [hoff, hmiddle] at left
  rw [hoff, hmiddle, hright] at middle
  rw [hoff] at right
  refine vector_ext fun p => ?_
  match p with
  | 0 => exact left.trans left'.symm
  | 1 => exact middle.trans middle'.symm
  | 2 => exact right.trans right'.symm

section DoubleStep

variable {c : Config} {a : Arch}

/-- The right rotor's notch turns the middle rotor alone, while that is on no notch of its own. -/
theorem stepBank_OFF_of_right_notch (hright : a.OFF.entry 2 ∈ c.notch.entry (a.ID.entry 2))
    (hmiddle : a.OFF.entry 1 ∉ c.notch.entry (a.ID.entry 1)) :
    (stepBank c a).OFF.entry 0 = a.OFF.entry 0 ∧ (stepBank c a).OFF.entry 1 = mod26 ((a.OFF.entry 1 : Int) + 1) := by
  obtain ⟨left, middle, -⟩ := stepBank_offsetsStepped c a
  exact ⟨left.trans (if_neg hmiddle), middle.trans (if_pos (.inr hright))⟩

/-- On a notch of its own the middle rotor turns the left one and itself. -/
theorem stepBank_OFF_of_middle_notch (hmiddle : a.OFF.entry 1 ∈ c.notch.entry (a.ID.entry 1)) :
    (stepBank c a).OFF.entry 0 = mod26 ((a.OFF.entry 0 : Int) + 1) ∧
      (stepBank c a).OFF.entry 1 = mod26 ((a.OFF.entry 1 : Int) + 1) := by
  obtain ⟨left, middle, -⟩ := stepBank_offsetsStepped c a
  exact ⟨left.trans (if_pos hmiddle), middle.trans (if_pos (.inl hmiddle))⟩

end DoubleStep

section Messages

theorem keyWord_eq_encode (x : Letter) : keyWord x = encode (.key x) := by
  revert x
  decide

/-- Sending the word of a well-formed command runs the command. -/
theorem coreExec_encode {i : Instr} (h : i.WellFormed) (a : Arch) : coreExec a (encode i) = instrReply i a :=
  coreExec_of_decode_ok (decode_encode h) a

theorem key_wellFormed (x : Letter) : (Instr.key x).WellFormed := by
  rw [wellFormed_key_iff]
  omega

/-- The low byte of an OK response that carries a letter is the letter. -/
theorem mod26_field_response_letter (y : Letter) : mod26 (field (response .ok (zext 24 y)) 7 0) = y := by
  have hbyte : field (response .ok (zext 24 y)) 7 0 = y := by
    simp only [response_ok_letter, field_eq, BitVec.toNat_ofNat, RSP_WIDTH]
    omega
  rw [hbyte, mod26_letter]

/-- The first letter of a message steps the bank and is encoded there; the rest goes on from the stepped bank. -/
theorem encodeLetters_cons (a : Arch) (x : Letter) (xs : List Letter) :
    encodeLetters a (x :: xs) =
      ((encodeLetters (stepBank hw a) xs).1, pipeline hw (stepBank hw a) x :: (encodeLetters (stepBank hw a) xs).2) := by
  have hsend : send a (keyWord x) = respond .ok (zext 24 (pipeline hw (stepBank hw a) x)) (stepBank hw a) := by
    rw [send, keyWord_eq_encode, coreExec_encode (key_wellFormed x), instrReply_key_of_letter]
  simp only [encodeLetters, hsend, respond, mod26_field_response_letter]

theorem encodeLetters_arch (a : Arch) (m : List Letter) : (encodeLetters a m).1 = (stepBank hw)^[m.length] a := by
  induction m generalizing a with
  | nil => rfl
  | cons x xs ih => rw [encodeLetters_cons, ih, List.length_cons, Function.iterate_succ_apply]

theorem encodeLetters_length (a : Arch) (m : List Letter) : (encodeLetters a m).2.length = m.length := by
  induction m generalizing a with
  | nil => rfl
  | cons x xs ih => rw [encodeLetters_cons, List.length_cons, ih, List.length_cons]

/-- The second pass meets each letter on the same stepped bank, where the pipeline undoes itself. -/
theorem encodeLetters_encodeLetters {a : Arch} (ha : a.Inv) (m : List Letter) :
    (encodeLetters a (encodeLetters a m).2).2 = m := by
  induction m generalizing a with
  | nil => rfl
  | cons x xs ih =>
    have hstepped := stepBank_inv hw ha
    rw [encodeLetters_cons, encodeLetters_cons, pipeline_pipeline tablesOk_hw hstepped, ih hstepped]

end Messages

end Sys2Proof.Machine

/-! The obligations on keypresses and messages. -/

section
open Sys2Proof Sys2Proof.Machine

/-- Settles O45: KEY encodes on the stepped bank, which satisfies the invariants as the state did, and there the pipeline
has no fixed point. -/
theorem keyNeverReturnsTheLetterKeyed : Obligations.KeyNeverReturnsTheLetterKeyed :=
  fun s x hs => ⟨_, _, exec_key x s, rfl, pipeline_ne tablesOk_hw (stepBank_inv hw hs) x⟩

/-- Settles O47: the rotations add up to one write of the offset. -/
theorem startPositionIsThatManyRotations : Obligations.StartPositionIsThatManyRotations := by
  intro a s x
  have hcount : mod26 (((a.setOFF s 0).OFF.entry s : Int) + (x.val : Nat)) = x := by
    rw [setOFF_OFF_get, if_pos rfl]
    exact (congrArg mod26 (zero_add _)).trans (mod26_letter x)
  rw [rotate_iterate, setOFF_setOFF, hcount]

/-- Settles O48: the first keypress is a turnover by the right rotor; it leaves the middle rotor on a notch of its own,
so the second is one by the middle rotor. -/
theorem doubleStepAdvancesTheMiddleTwice : Obligations.DoubleStepAdvancesTheMiddleTwice := by
  intro s i j hi hj hright hmiddle hnext
  obtain ⟨t, hst, ht⟩ := exec_keypress hi s
  obtain ⟨u, htu, hu⟩ := exec_keypress hj t
  obtain ⟨hleft₁, hmiddle₁⟩ := stepBank_OFF_of_right_notch hright hmiddle
  rw [← ht] at hleft₁ hmiddle₁
  have hID : t.arch.ID = s.arch.ID := by rw [ht, stepBank_ID]
  have hon : t.arch.OFF.entry 1 ∈ hw.notch.entry (t.arch.ID.entry 1) := by rwa [hmiddle₁, hID]
  obtain ⟨hleft₂, hmiddle₂⟩ := stepBank_OFF_of_middle_notch hon
  rw [← hu, hleft₁] at hleft₂
  rw [← hu, hmiddle₁, mod26_add_mod26, add_assoc] at hmiddle₂
  exact ⟨t, u, hst, htu, hmiddle₁, hleft₁, hmiddle₂, hleft₂⟩

/-- Settles O49. -/
theorem steppingReadsOnlyOffsetsAndTwoRotors : Obligations.SteppingReadsOnlyOffsetsAndTwoRotors := by
  intro s s' t t' hoff hmiddle hright ht ht'
  rw [exec_step] at ht ht'
  cases ht
  cases ht'
  exact stepBank_OFF_congr hoff hmiddle hright

/-- Settles O50, by induction on the message. -/
theorem keyedLettersDoNotChangeTheStepping : Obligations.KeyedLettersDoNotChangeTheStepping :=
  fun a m => ⟨encodeLetters_arch a m, encodeLetters_length a m⟩

/-- Settles O51, by induction on the message. -/
theorem encodingTwiceFromTheSameStateGivesTheMessage : Obligations.EncodingTwiceFromTheSameStateGivesTheMessage :=
  fun _ m ha => encodeLetters_encodeLetters ha m

end

/-! The host wrapper: grouping, normalising, and the words that `AddPlug` and `AddRotor` send. -/

namespace Sys2Proof.Machine

section Grouping

/-- From output index `i + 1` on, a space goes before each letter whose index is a multiple of 5. -/
theorem groupFrom_length (i : Nat) (out : List Letter) :
    (groupFrom (i + 1) out).length + i / 5 = out.length + (i + out.length) / 5 := by
  induction out generalizing i with
  | nil => simp [groupFrom]
  | cons x xs ih =>
    have hrest := ih (i + 1)
    rw [groupFrom, List.length_append, List.length_cons]
    split_ifs with hspace
    · simp only [List.length_cons, List.length_nil]
      omega
    · simp only [List.length_cons, List.length_nil]
      omega

/-- The first letter has no space before it. -/
theorem groupLetters_length_cons (x : Letter) (xs : List Letter) :
    (groupLetters (x :: xs)).length = xs.length + 1 + xs.length / 5 := by
  have hrest := groupFrom_length 0 xs
  rw [groupLetters, groupFrom, if_neg (by simp), List.length_append, List.length_singleton]
  omega

end Grouping

section Normalising

/-- Capitals are upper case already, and the capital of a letter has its index. -/
theorem capitalIndex_upperAscii_capital (x : Letter) : capitalIndex (upperAscii (capital x)) = some x := by
  revert x
  decide

theorem capitalIndex_upperAscii_lowerAscii_capital (x : Letter) :
    capitalIndex (upperAscii (lowerAscii (capital x))) = some x := by
  revert x
  decide

/-- Normalising is idempotent (44_host_wrapper.md R133). -/
theorem normalizeText_map_capital (xs : List Letter) : normalizeText (xs.map capital) = xs := by
  have hletter : (fun ch => capitalIndex (upperAscii ch)) ∘ capital = some := funext capitalIndex_upperAscii_capital
  rw [normalizeText, List.filterMap_map, hletter, List.filterMap_some]

end Normalising

section Words

/-- The status code that the wrapper reads from a response. -/
theorem statusField_response (st : Status) (d : BitVec 24) : statusField (response st d) = st.code :=
  BitVec.eq_of_toNat_eq (response_status st d)

/-- Or-ing a value into places that are clear in a word adds it there. -/
theorem toNat_or_shiftLeft {w : Word} {m k b : Nat} (hw : w.toNat % 2 ^ m = 0) (hb : b * 2 ^ k < 2 ^ m) (hm : m ≤ 32) :
    (w ||| BitVec.ofNat CMD_WIDTH b <<< k).toNat = w.toNat + b * 2 ^ k := by
  have hbound : b * 2 ^ k < 2 ^ CMD_WIDTH := hb.trans_le (Nat.pow_le_pow_right (by decide) hm)
  have hvalue : (BitVec.ofNat CMD_WIDTH b <<< k).toNat = b * 2 ^ k := by
    rw [BitVec.toNat_shiftLeft, BitVec.toNat_ofNat, Nat.shiftLeft_eq, Nat.mod_mul_mod, Nat.mod_eq_of_lt hbound]
  have hplaces : w.toNat = (w.toNat / 2 ^ m) <<< m := by
    rw [Nat.shiftLeft_eq, Nat.div_mul_cancel (Nat.dvd_of_mod_eq_zero hw)]
  rw [BitVec.toNat_or, hvalue, hplaces, Nat.shiftLeft_add_eq_or_of_lt hb]

/-- The word that `AddPlug` sends (44_host_wrapper.md R134). -/
theorem addplugWord_eq_encode {l r : Nat} (h : (Instr.addplug l r).WellFormed) :
    0x04000000#32 ||| BitVec.ofNat CMD_WIDTH l <<< 8 ||| BitVec.ofNat CMD_WIDTH r = encode (.addplug l r) := by
  obtain ⟨hl, hr⟩ := (wellFormed_addplug_iff l r).1 h
  have hleft : (0x04000000#32 ||| BitVec.ofNat CMD_WIDTH l <<< 8).toNat = 0x04000000 + l * 2 ^ 8 :=
    toNat_or_shiftLeft (m := 16) rfl (by omega) (by decide)
  have hright := toNat_or_shiftLeft (k := 0) (m := 8) (b := r) (by rw [hleft]; omega) (by omega) (by decide)
  rw [BitVec.shiftLeft_zero] at hright
  apply BitVec.eq_of_toNat_eq
  rw [hright, hleft]
  simp only [encode, toNat_append, BitVec.toNat_ofNat]
  omega

/-- The word that `SetRotor` sends (44_host_wrapper.md R135). -/
theorem setrotWord_eq_encode {pos rid ring start : Nat} (h : (Instr.setrot pos rid ring start).WellFormed) :
    0x02000000#32 ||| BitVec.ofNat CMD_WIDTH pos <<< 20 ||| BitVec.ofNat CMD_WIDTH rid <<< 16
      ||| BitVec.ofNat CMD_WIDTH ring <<< 8 ||| BitVec.ofNat CMD_WIDTH start = encode (.setrot pos rid ring start) := by
  obtain ⟨hpos, hrid, hring, hstart⟩ := (wellFormed_setrot_iff pos rid ring start).1 h
  have hpos' : (0x02000000#32 ||| BitVec.ofNat CMD_WIDTH pos <<< 20).toNat = 0x02000000 + pos * 2 ^ 20 :=
    toNat_or_shiftLeft (m := 24) rfl (by omega) (by decide)
  have hrid' := toNat_or_shiftLeft (k := 16) (m := 20) (b := rid) (by rw [hpos']; omega) (by omega) (by decide)
  have hring' := toNat_or_shiftLeft (k := 8) (m := 16) (b := ring) (by rw [hrid', hpos']; omega) (by omega) (by decide)
  have hstart' := toNat_or_shiftLeft (k := 0) (m := 8) (b := start) (by rw [hring', hrid', hpos']; omega) (by omega)
    (by decide)
  rw [BitVec.shiftLeft_zero] at hstart'
  apply BitVec.eq_of_toNat_eq
  rw [hstart', hring', hrid', hpos']
  simp only [encode, toNat_append, BitVec.toNat_ofNat]
  omega

end Words

section Plugs

theorem plugCode_of_capitalIndex {ch : Char} {x : Letter} (h : capitalIndex (upperAscii ch) = some x) :
    plugCode ch = x := by
  rw [plugCode, h]

theorem plugCode_letter {ch : Char} {x : Letter} (h : ch = capital x ∨ ch = lowerAscii (capital x)) :
    plugCode ch = x := by
  obtain rfl | rfl := h
  · exact plugCode_of_capitalIndex (capitalIndex_upperAscii_capital x)
  · exact plugCode_of_capitalIndex (capitalIndex_upperAscii_lowerAscii_capital x)

theorem lowerAscii_capital (x : Letter) : lowerAscii (capital x) = Char.ofNat ('a'.toNat + x) := by
  revert x
  decide

/-- A character in neither range of the ASCII letters has the code 31: it is not changed to a capital and is none. -/
theorem plugCode_of_not_letter {ch : Char} (h : ∀ x : Letter, ch ≠ capital x ∧ ch ≠ lowerAscii (capital x)) :
    plugCode ch = 31 := by
  have hA : 'A'.toNat = 65 := rfl
  have ha : 'a'.toNat = 97 := rfl
  have hz : 'z'.toNat = 122 := rfl
  have hcapital : ¬ ('A'.toNat ≤ ch.toNat ∧ ch.toNat - 'A'.toNat < 26) := fun ⟨hle, hlt⟩ => by
    refine (h ⟨ch.toNat - 'A'.toNat, hlt⟩).1 ?_
    rw [capital, Nat.add_sub_of_le hle, Char.ofNat_toNat]
  have hsmall : ¬ ('a'.toNat ≤ ch.toNat ∧ ch.toNat ≤ 'z'.toNat) := fun ⟨hle, hlt⟩ => by
    refine (h ⟨ch.toNat - 'a'.toNat, by omega⟩).2 ?_
    rw [lowerAscii_capital, Nat.add_sub_of_le hle, Char.ofNat_toNat]
  have hupper : upperAscii ch = ch := if_neg hsmall
  have hindex : capitalIndex ch = none := by
    unfold capitalIndex
    split_ifs with hle
    · exact (letterOperand_eq_none _).2 (by omega)
    · rfl
  rw [plugCode, hupper, hindex]

/-- Letters have the codes 0 to 25 and every other character 31. -/
theorem plugCode_le (ch : Char) : plugCode ch ≤ 31 := by
  unfold plugCode
  split
  · omega
  · rfl

/-- Of a text that is not two characters no command is sent. -/
theorem addPlugText_of_length_ne {p : List Char} (h : p.length ≠ 2) (a : Arch) : addPlugText a p = (a, 0x06#8) := by
  unfold addPlugText
  split
  · exact absurd rfl h
  · rfl

theorem plugCodes_wellFormed (c d : Char) : (Instr.addplug (plugCode c) (plugCode d)).WellFormed := by
  have hc := plugCode_le c
  have hd := plugCode_le d
  rw [wellFormed_addplug_iff]
  omega

/-- `AddPlug` of two characters is ADDPLUG of their codes. -/
theorem addPlugText_pair (a : Arch) (c d : Char) : addPlugText a [c, d] =
    ((instrReply (.addplug (plugCode c) (plugCode d)) a).arch,
      statusField (instrReply (.addplug (plugCode c) (plugCode d)) a).rsp) := by
  rw [addPlugText, addplugWord_eq_encode (plugCodes_wellFormed c d), send, coreExec_encode (plugCodes_wellFormed c d)]

end Plugs

section Rotors

theorem nameIndex_rotorName (r : RotorId) : nameIndex rotorNames ((rotorName r).map upperAscii) = r := by
  revert r
  decide

theorem nameIndex_positionName (p : Slot) :
    nameIndex positionNames (((positionNames[p.val]?).getD []).map lowerAscii) = p := by
  revert p
  decide

theorem ringCode_ring (n : RingSetting) : ringCode (n : Int) = n := by
  rw [ringCode, if_pos (by omega), Int.toNat_natCast]

theorem startCode_capital (x : Letter) : startCode [capital x] = x := by
  rw [startCode, capitalIndex_upperAscii_capital]

/-- `SetRotor` with a legal ring and a start letter writes its slot and answers OK. -/
theorem setRotorText_legal (a : Arch) (p : Slot) (r : RotorId) {n : RingSetting} (hn : 1 ≤ n.val) (x : Letter) :
    setRotorText a (rotorName r) ((positionNames[p.val]?).getD []) (n : Int) [capital x] =
      (writeSlot p r n x a, 0x00#8) := by
  have hfits : (Instr.setrot p r n x).WellFormed := by
    rw [wellFormed_setrot_iff]
    omega
  rw [setRotorText, nameIndex_rotorName, nameIndex_positionName, ringCode_ring, startCode_capital,
    setrotWord_eq_encode hfits, send, coreExec_encode hfits, instrReply_setrot_of_legal a r p hn x]
  exact congrArg (Prod.mk _) (statusField_response .ok 0)

/-- An appended rotor goes to the slot of the counter, which then counts one more. -/
theorem addRotorText_legal (a : Arch) (p : Slot) (r : RotorId) {n : RingSetting} (hn : 1 ≤ n.val) (x : Letter) :
    addRotorText ⟨a, p⟩ (rotorName r) (n : Int) [capital x] = (⟨writeSlot p r n x a, p + 1⟩, 0x00#8) := by
  rw [addRotorText, if_neg (show p.val ≠ 3 by omega), setRotorText_legal a p r hn x]
  rfl

/-- With three rotors appended no command is sent (60_exceptions.md R148). -/
theorem addRotorText_full {h : AppendHost} (hn : h.n = 3) (name : List Char) (ring : Int) (start : List Char) :
    addRotorText h name ring start = (h, 0x08#8) :=
  if_pos hn

theorem set_three {α : Type} (v : Vector α 3) (x y z : α) :
    ((v.set (0 : Slot) x).set (1 : Slot) y).set (2 : Slot) z = #v[x, y, z] := by
  refine vector_ext fun p => ?_
  rw [vector_set_get, vector_set_get, vector_set_get]
  match p with
  | 0 => rfl
  | 1 => rfl
  | 2 => rfl

/-- Writing the three slots leaves nothing of the bank that was there. -/
theorem writeSlot_three (a : Arch) (r0 r1 r2 : RotorId) (n0 n1 n2 : RingSetting) (x0 x1 x2 : Letter) :
    writeSlot 2 r2 n2 x2 (writeSlot 1 r1 n1 x1 (writeSlot 0 r0 n0 x0 a)) =
      ⟨#v[r0, r1, r2], #v[n0, n1, n2], #v[x0, x1, x2], a.REF, a.PLUG⟩ :=
  arch_eq (set_three ..) (set_three ..) (set_three ..) rfl rfl

end Rotors

end Sys2Proof.Machine

/-! The obligations of 44_host_wrapper.md. -/

section
open Sys2Proof Sys2Proof.Machine

/-- Settles O52, by induction on the letters after the first. -/
theorem groupedOutputHasTheLawfulLength : Obligations.GroupedOutputHasTheLawfulLength := by
  refine ⟨fun out hout => ?_, rfl⟩
  obtain ⟨x, xs, rfl⟩ := List.exists_cons_of_ne_nil hout
  rw [groupLetters_length_cons, List.length_cons, Nat.add_sub_cancel]

/-- Settles O53: `Encode` reads a text through its normalised letters only, and those of their capitals are the same. -/
theorem encodeIgnoresCaseAndNonLetters : Obligations.EncodeIgnoresCaseAndNonLetters := by
  intro a text
  rw [encodeText, encodeText, normalizeText_map_capital]

/-- Settles O54: each append writes the slot of the counter, and the three writes leave nothing of the old bank. -/
theorem appendedRotorsFillLeftMiddleRight : Obligations.AppendedRotorsFillLeftMiddleRight := by
  intro a r0 r1 r2 n0 n1 n2 x0 x1 x2 hn0 hn1 hn2 h1 h2 h3
  have e1 : h1 = (⟨writeSlot 0 r0 n0 x0 a, 1⟩, 0x00#8) := addRotorText_legal a 0 r0 hn0 x0
  have e2 : h2 = (⟨writeSlot 1 r1 n1 x1 (writeSlot 0 r0 n0 x0 a), 2⟩, 0x00#8) := by
    simp only [h2, e1]
    exact addRotorText_legal _ 1 r1 hn1 x1
  have e3 : h3 = (⟨⟨#v[r0, r1, r2], #v[n0, n1, n2], #v[x0, x1, x2], a.REF, a.PLUG⟩, 3⟩, 0x00#8) := by
    simp only [h3, e2, ← writeSlot_three]
    exact addRotorText_legal _ 2 r2 hn2 x2
  rw [e1, e2, e3]
  exact ⟨rfl, rfl, rfl, rfl, fun name start ring => addRotorText_full rfl name ring start⟩

/-- Settles O55: `AddPlug` sends ADDPLUG of the two codes; a letter's code is its index, and 31 is no letter. -/
theorem plugTextsSendTheirPair : Obligations.PlugTextsSendTheirPair := by
  refine ⟨fun a p hp => ?_, fun a x y c d hc hd => ?_, fun _ => plugCode_of_not_letter, fun a c d => ⟨?_, fun hcd => ?_⟩⟩
  · exact addPlugText_of_length_ne hp a
  · rw [addPlugText_pair, plugCode_letter hc, plugCode_letter hd]
  · rw [coreExec_encode (plugCodes_wellFormed c d)]
    exact addPlugText_pair a c d
  · have hcode : 25 < plugCode c ∨ 25 < plugCode d ∨ plugCode c = plugCode d := by
      obtain hc | hd := hcd
      · exact .inl (by rw [plugCode_of_not_letter hc]; decide)
      · exact .inr (.inl (by rw [plugCode_of_not_letter hd]; decide))
    rw [addPlugText_pair, instrReply_addplug_of_not_pair a hcode]
    exact congrArg (Prod.mk a) (statusField_response .invalidPlugFormat 0)

end
